-- ==== Sys2Proof/Word.lean ====
section
/-! DEFINITION. The bit vectors the block handles: bytes of a frame (00_scope R12), the 16-bit CRC register
(10_state R32), 32-bit registers and bus words (10_state R20), 64-bit time stamps (10_state R34, R42).
Every value is unsigned (00_scope R13). -/

namespace Sys2Proof

/-- A byte: "A byte is 8 bits, unsigned, 0..255" (00_scope R12). -/
abbrev Byte := BitVec 8

/-- The CRC register, 16 bits (10_state R32). -/
abbrev Half := BitVec 16

/-- A register or bus word: "Every host-visible register is 32 bits wide" (10_state R20). -/
abbrev Word := BitVec 32

/-- A time stamp: TIME and LAST_READ are 64 bits (10_state R34, R42). -/
abbrev Stamp := BitVec 64

end Sys2Proof
end

