-- ==== Sys2Proof/Config.lean ====
section
/-! DEFINITION. What an implementation fixes (00_scope R10) and the free values the spec leaves open
(93_implementation_defined U5, U6). The parameters are plain data that State carries as constants, so that every
statement is about every legal implementation (log 1). -/

namespace Sys2Proof

/-- The implementation parameters of 00_scope R10. -/
structure Params where
  /-- Bus address of the register window. -/
  base : Nat
  /-- Size in bytes of each of IN and OUT. -/
  bufBytes : Nat
  /-- Number of serial ports. -/
  numPorts : Nat
  /-- Ticks of TIME per second. -/
  tickHz : Nat
  deriving DecidableEq, Repr

/-- The legal values of the parameters: the third column of 00_scope R10's table. -/
abbrev Params.Legal (p : Params) : Prop :=
  p.base % 4096 = 0 ∧ p.bufBytes % 4 = 0 ∧ 16 ≤ p.bufBytes ∧ p.bufBytes ≤ 4096 ∧
    1 ≤ p.numPorts ∧ p.numPorts ≤ 16 ∧ 1 ≤ p.tickHz ∧ p.tickHz ≤ 100000000

/-- The reference values of 00_scope R10; BASE, which has none, is 0 (DESIGN CHOICE, log 1). -/
def Params.reference : Params :=
  { base := 0, bufBytes := 1024, numPorts := 4, tickHz := 1000000 }

/-- The draw a host reads from a result register while BUSY = 1 (20_memory R67, U5): a free value, applied to State's
counter of draws (log 4). Nothing can be proved about it. -/
opaque Config.busyDraw : Nat → Word

/-- What a buffer byte not written since reset reads as, by the counter of draws and the byte's index (10_state R46,
U6): a free value (log 5). Nothing can be proved about it. -/
opaque Config.undefinedByte : Nat → Nat → Byte

end Sys2Proof
end

