-- ==== Sys2Proof/Machine/State.lean ====
section
/-! DEFINITION. Everything the spec gives the block, as plain data (10_state), the events that reach it from outside
(00_scope R19), the reasons a step can stop, and the state after reset (10_state R47). -/

namespace Sys2Proof.Machine

/-- A byte buffer: pairs of index and byte, indexes strictly rising (`Memory.Canonical`). An index not listed holds no
value: its DEF bit is 0 (10_state R46; log 13). -/
abbrev Memory := List Host.Cell

/-- The state of one port (10_state R39, R41, R42, R46). SILENT[p] is derived, not stored (R40). -/
structure Port where
  /-- BAUD[p]. -/
  baud : Word
  /-- LAST_READ[p]. -/
  lastRead : Stamp
  /-- HAS_READ[p]. -/
  hasRead : Bool
  /-- INFLIGHT[p], state of the model only (R46). -/
  inflight : Bool
  deriving DecidableEq, Repr

/-- The model faults of 60_exceptions R245. -/
inductive ModelFault where
  /-- A host or a command read a buffer byte not written since reset. -/
  | undefRead
  /-- A GATE_TX on a port with an exchange in flight. -/
  | overlap
  /-- A host access to a reserved offset, or of the wrong width or alignment. -/
  | busError
  deriving DecidableEq, Repr

/-- FAULTS, "a set of model faults" (10_state R46), as one bit for each possible member (log 16). -/
structure FaultSet where
  undefRead : Bool
  overlap : Bool
  busError : Bool
  deriving DecidableEq, Repr

/-- The error codes of 60_exceptions R231, by name; `ok` is success. -/
inductive ErrCode where
  | ok
  | illegalCmd
  | argAddress
  | argFunction
  | argLength
  | argPort
  | argBaud
  | frameShort
  | frameHeader
  | frameFooter
  | frameOdd
  | frameHex
  | frameChecksum
  | mismatchAddress
  | mismatchFunction
  | deviceException
  deriving DecidableEq, Repr

/-- The classes of 60_exceptions R230. -/
inductive ErrClass where
  | argument
  | frame
  | protocolMismatch
  | deviceError
  deriving DecidableEq, Repr

/-- What reaches the block: host accesses, the engine's moment, the clock and the reset input (00_scope R19). Addresses
are bus addresses, widths are in bytes. -/
inductive Event where
  /-- A host read of `width` bytes at `addr`. -/
  | hostRead (addr width : Nat)
  /-- A host write of `value` in an access of `width` bytes at `addr`. -/
  | hostWrite (addr width : Nat) (value : Word)
  /-- The moment at which the engine takes its step, if it has one to take. -/
  | engine
  /-- One tick of TIME. -/
  | tick
  /-- The reset input is asserted. -/
  | resetAssert
  /-- The reset input is released. -/
  | resetRelease
  deriving DecidableEq, Repr

/-- What the host saw at the last access (log 9). -/
inductive Response where
  /-- No access yet. -/
  | none
  /-- A read returned this word. -/
  | data (v : Word)
  /-- A write was taken, dropped or ignored; the bus does not tell which. -/
  | written
  /-- A bus-error response (20_memory R66). -/
  | busError
  /-- The access came while reset was asserted and was not taken (70_reset_and_hazards R260). -/
  | notTaken
  deriving DecidableEq, Repr

/-- Why a step stops with a fault. -/
inductive Fault where
  /-- Raised by a host access at a bus address outside the block's 12 KiB window: it is no access to the block
  (20_memory R60). Safe: the model stops where nothing is claimed. -/
  | outsideWindow (addr : Nat)
  deriving DecidableEq, Repr

/-- Why a step is refused. -/
inductive Refusal where
  /-- Raised by an arm of exec whose instruction has no meaning yet; no arm raises it now. Safe. -/
  | notModelled (mnemonic : String)
  deriving DecidableEq, Repr

/-- The state of the block. -/
structure State where
  /-- BASE, BUF_BYTES, NUM_PORTS, TICK_HZ: constants (00_scope R10; log 1). -/
  params : Params
  /-- STATUS.BUSY (10_state R23). -/
  busy : Bool
  /-- STATUS.DONE (R24). -/
  done : Bool
  /-- STATUS.OVR (R25). -/
  ovr : Bool
  /-- STATUS.ERR (R27). -/
  err : Byte
  /-- SADDR (R28). -/
  saddr : Word
  /-- FCODE (R29). -/
  fcode : Word
  /-- LEN (R30). -/
  len : Word
  /-- OUT_LEN (R31). -/
  outLen : Word
  /-- CRC[15:0] (R32). -/
  crc : Half
  /-- LRCSUM (R33). -/
  lrcSum : Byte
  /-- TIME (R34). -/
  time : Stamp
  /-- TIME_HI_SHADOW (R34, R43). -/
  timeHiShadow : Word
  /-- CUR_CMD (R43). -/
  curCmd : Word
  /-- IN and DEF_IN (R37, R46). -/
  inBuf : Memory
  /-- OUT and DEF_OUT (R38, R46). -/
  outBuf : Memory
  /-- The per-port state, port p at place p (R39 to R44, R46). -/
  ports : List Port
  /-- FAULTS (R46). -/
  faults : FaultSet
  /-- The reset input is asserted (70_reset_and_hazards R260; log 11). -/
  inReset : Bool
  /-- The model's own: how many free values have been drawn (log 4). -/
  draws : Nat
  /-- The model's own: what the host saw at the last access (log 9). -/
  response : Response
  /-- The model's own: the events still to come, oldest first (log 2). -/
  schedule : List Event
  deriving DecidableEq, Repr

/-- A port at reset: BAUD 9600, no read, nothing in flight (10_state R47). -/
def Port.initial : Port :=
  { baud := 9600, lastRead := 0, hasRead := false, inflight := false }

/-- FAULTS empty. -/
def FaultSet.empty : FaultSet := { undefRead := false, overlap := false, busError := false }

/-- The reset values of 10_state R47 for a block with parameters `p`. -/
def State.initial (p : Params) : State :=
  { params := p
    busy := false
    done := false
    ovr := false
    err := 0
    saddr := 0
    fcode := 0
    len := 0
    outLen := 0
    crc := 0xFFFF
    lrcSum := 0
    time := 0
    timeHiShadow := 0
    curCmd := 0
    inBuf := []
    outBuf := []
    ports := List.replicate p.numPorts Port.initial
    faults := FaultSet.empty
    inReset := false
    draws := 0
    response := .none
    schedule := [] }

/-- The machine right after reset, with the reference parameters (10_state R47, 00_scope R10; log 1). -/
def State.reset : State := State.initial Params.reference

end Sys2Proof.Machine
end

