-- ==== Sys2Proof/Machine/Ops.lean ====
section
/-! DEFINITION. The named operations over buffers, ports, FAULTS and STATUS, among them accepting a command
(60_exceptions R235), completing it (R236) and ending it with an error that discards its output (R237). The block has no
traps and no return from one (R239, R240): an error completion is its whole exception mechanism. -/

namespace Sys2Proof.Machine

/-! ### Buffers (10_state R37, R38, R46) -/

/-- The canonical form: indexes strictly rising. Unlisted indexes have no value, so no entry can repeat one. -/
abbrev Memory.Canonical (m : Memory) : Prop := m.Pairwise (fun c d => c.1 < d.1)

/-- The canonical form as a Bool. -/
def Memory.wf (m : Memory) : Bool := decide (Memory.Canonical m)

/-- The byte at index `a`, or none where DEF is 0. -/
def Memory.get : Memory → Nat → Option Byte
  | [], _ => none
  | (k, b) :: m, a => if a = k then some b else Memory.get m a

/-- Write byte `b` at index `a` and set its DEF bit. -/
def Memory.set : Memory → Nat → Byte → Memory
  | [], a, b => [(a, b)]
  | (k, c) :: m, a, b =>
    if a < k then (a, b) :: (k, c) :: m
    else if a = k then (a, b) :: m
    else (k, c) :: Memory.set m a b

/-- Write a byte string at indexes `a`, `a + 1`, … -/
def Memory.write : Memory → Nat → List Byte → Memory
  | m, _, [] => m
  | m, a, b :: bs => Memory.write (Memory.set m a b) (a + 1) bs

/-- Are the `n` bytes from index `a` all defined? -/
def Memory.defined (m : Memory) : Nat → Nat → Bool
  | _, 0 => true
  | a, n + 1 => (Memory.get m a).isSome && Memory.defined m (a + 1) n

/-- The `n` bytes from index `a`, an undefined byte being the free value of draw `d` (U6; log 5). -/
def Memory.read (m : Memory) (d : Nat) : Nat → Nat → List Byte
  | _, 0 => []
  | a, n + 1 =>
    (Memory.get m a).getD (Config.undefinedByte d a) :: Memory.read m d (a + 1) n

/-- The word of little-endian byte lanes: byte j in bits 8j+7:8j (20_memory R63). -/
def wordOfBytes : List Byte → Word
  | [] => 0
  | b :: bs => (wordOfBytes bs <<< 8) ||| b.setWidth 32

/-- The four bytes of a word, byte lane 0 first (20_memory R63). -/
def bytesOfWord (v : Word) : List Byte :=
  [v.extractLsb' 0 8, v.extractLsb' 8 8, v.extractLsb' 16 8, v.extractLsb' 24 8]

/-! ### FAULTS (60_exceptions R245) -/

/-- Is fault `f` recorded? -/
def FaultSet.has (s : FaultSet) (f : ModelFault) : Bool :=
  match f with
  | .undefRead => s.undefRead
  | .overlap => s.overlap
  | .busError => s.busError

/-- Record fault `f`. -/
def FaultSet.add (s : FaultSet) (f : ModelFault) : FaultSet :=
  match f with
  | .undefRead => { s with undefRead := true }
  | .overlap => { s with overlap := true }
  | .busError => { s with busError := true }

/-- Add model fault `f` to FAULTS; the block's own state follows its rules "as if nothing had happened" (U20). -/
def State.recordFault (s : State) (f : ModelFault) : State := { s with faults := s.faults.add f }

/-- Record UNDEF_READ, and use up one draw, unless every byte read was defined (10_state R46; log 5). -/
def State.noteRead (s : State) (allDefined : Bool) : State :=
  if allDefined then s
  else { s with faults := s.faults.add .undefRead, draws := s.draws + 1 }

/-! ### Ports (10_state R44) -/

/-- The state of port `p`; for an index that names no port, the reset state (no rule reads it; log 17). -/
def State.port (s : State) (p : Nat) : Port := s.ports.getD p Port.initial

/-- Replace the state of port `p`; an index that names no port changes nothing. -/
def State.setPort (s : State) (p : Nat) (q : Port) : State := { s with ports := s.ports.set p q }

/-! ### Error codes (60_exceptions R230, R231) -/

/-- The 8-bit code of R231. -/
def ErrCode.byte : ErrCode → Byte
  | .ok => 0x00
  | .illegalCmd => 0x01
  | .argAddress => 0x02
  | .argFunction => 0x03
  | .argLength => 0x04
  | .argPort => 0x05
  | .argBaud => 0x06
  | .frameShort => 0x10
  | .frameHeader => 0x11
  | .frameFooter => 0x12
  | .frameOdd => 0x13
  | .frameHex => 0x14
  | .frameChecksum => 0x15
  | .mismatchAddress => 0x20
  | .mismatchFunction => 0x21
  | .deviceException => 0x30

/-- The class of a nonzero code, from ERR[7:4] (R230). -/
def ErrCode.errClass : ErrCode → Option ErrClass
  | .ok => none
  | .illegalCmd => some .argument
  | .argAddress => some .argument
  | .argFunction => some .argument
  | .argLength => some .argument
  | .argPort => some .argument
  | .argBaud => some .argument
  | .frameShort => some .frame
  | .frameHeader => some .frame
  | .frameFooter => some .frame
  | .frameOdd => some .frame
  | .frameHex => some .frame
  | .frameChecksum => some .frame
  | .mismatchAddress => some .protocolMismatch
  | .mismatchFunction => some .protocolMismatch
  | .deviceException => some .deviceError

/-! ### Start and end of a command (60_exceptions R235 to R237) -/

/-- Accept word `w`: CUR_CMD ← w; BUSY ← 1; DONE ← 0; ERR ← 0x00; nothing else (R235). -/
def State.accept (s : State) (w : Word) : State :=
  { s with curCmd := w, busy := true, done := false, err := 0 }

/-- `complete(code)`: ERR ← code; BUSY ← 0; DONE ← 1 (R236). -/
def State.complete (s : State) (c : ErrCode) : State :=
  { s with err := c.byte, busy := false, done := true }

/-- A buffer command ends with an error: OUT_LEN ← 0, no byte of OUT written, then complete (R237). -/
def State.discard (s : State) (c : ErrCode) : State := { s.complete c with outLen := 0 }

/-- A buffer command's result: OUT[0..n) ← the bytes, with their DEF bits, and OUT_LEN ← n (10_state R31, R38). -/
def State.putOut (s : State) (bs : List Byte) : State :=
  { s with outBuf := Memory.write s.outBuf 0 bs, outLen := BitVec.ofNat 32 bs.length }

/-- The CRC accumulator's new value (10_state R32). -/
def State.setCrc (s : State) (c : Half) : State := { s with crc := c }

/-- The LRC sum's new value (10_state R33). -/
def State.setLrcSum (s : State) (b : Byte) : State := { s with lrcSum := b }

/-! ### The clock and the reset input -/

/-- TIME "increases by 1 per tick" and wraps modulo 2^64 (10_state R34). -/
def State.tick (s : State) : State := { s with time := s.time + 1 }

/-- Reset is released: every piece of state holds its reset value, but FAULTS keeps its members
(70_reset_and_hazards R260, R262). The parameters, the coming events and the count of draws are not the block's to
reset (log 12). -/
def State.released (s : State) : State :=
  { State.initial s.params with faults := s.faults, draws := s.draws, schedule := s.schedule }

end Sys2Proof.Machine
end

