-- ==== Sys2Proof/Machine/Operands.lean ====
section
/-! DEFINITION. The operand forms of the commands: the buffer operand IN[0..LEN), the frame operands SADDR and FCODE with
their checks (41_frame_codec R160), and the port operand with its silent period, elapsed time and hold
(42_timing_gate R201 to R205). The DATA operand is in the instruction itself. -/

namespace Sys2Proof.Machine

/-! ### The buffer operand -/

/-- LEN as a count of bytes (10_state R30). -/
def State.inCount (s : State) : Nat := s.len.toNat

/-- LEN > BUF_BYTES: the operand does not fit IN (10_state R30). -/
def State.lenTooLong (s : State) : Bool := decide (s.params.bufBytes < s.inCount)

/-- IN[0..LEN), undefined bytes being free values. -/
def State.inBytes (s : State) : List Byte := Memory.read s.inBuf s.draws 0 s.inCount

/-- Every byte of IN[0..LEN) is defined. -/
def State.inDefined (s : State) : Bool := Memory.defined s.inBuf 0 s.inCount

/-- The state after a command has read IN[0..LEN): UNDEF_READ is recorded if a byte was undefined. -/
def State.readIn (s : State) : State := s.noteRead s.inDefined

/-! ### The frame operands -/

/-- The address byte: SADDR[7:0]. -/
def State.addressByte (s : State) : Byte := s.saddr.extractLsb' 0 8

/-- The function-code byte: FCODE[7:0]. -/
def State.functionByte (s : State) : Byte := s.fcode.extractLsb' 0 8

/-- `check_args` of R160, the error it raises if any: the full 32-bit values are compared, address first, then function
code, then length. -/
def State.checkArgs (s : State) : Option ErrCode :=
  if 247 < s.saddr.toNat then some .argAddress
  else if s.fcode.toNat < 1 ∨ 127 < s.fcode.toNat then some .argFunction
  else if s.lenTooLong then some .argLength
  else none

/-! ### The port operand -/

/-- `silent_ticks(B)` for B ≥ 1: (77·TICK_HZ + 2B − 1) div (2B) (R201). -/
def silentTicks (tickHz baud : Nat) : Nat := (77 * tickHz + 2 * baud - 1) / (2 * baud)

/-- The value of SILENT[p] for BAUD[p] = `baud` (10_state R40). -/
def silentOf (p : Params) (baud : Word) : Word :=
  if baud = 0 then 0 else BitVec.ofNat 32 (silentTicks p.tickHz baud.toNat)

/-- `p ≥ NUM_PORTS`, the check of R204. -/
def State.noSuchPort (s : State) (p : Nat) : Bool := decide (s.params.numPorts ≤ p)

/-- SILENT[p] (10_state R40). -/
def State.silent (s : State) (p : Nat) : Word := silentOf s.params (s.port p).baud

/-- elapsed(p) = (TIME − LAST_READ[p]) mod 2^64 (R203). -/
def State.elapsed (s : State) (p : Nat) : Stamp := s.time - (s.port p).lastRead

/-- The condition of GATE_TX's hold: HAS_READ[p] = 1 and elapsed(p) < SILENT[p] (R205). Its negation is eligibility
(R203). -/
def State.holding (s : State) (p : Nat) : Bool :=
  (s.port p).hasRead && decide ((s.elapsed p).toNat < (s.silent p).toNat)

end Sys2Proof.Machine
end

