-- ==== Sys2Proof/Machine/Checksum.lean ====
section
/-! DEFINITION. The Checksum Engine: the functions of 40_checksum R130 to R133 and the meanings of its six commands
(R140 to R147). Each meaning is the command's one atomic engine step, from its checks to complete (60_exceptions R236). -/

namespace Sys2Proof.Machine

/-! ### The functions -/

/-- The polynomial (R130). -/
def crcPoly : Half := 0xA001

/-- The initial register (R131). -/
def crcInitial : Half := 0xFFFF

/-- One shift of R130: logical right shift, then XOR with the polynomial when the bit shifted out was 1. -/
def crcShift (c : Half) : Half := if c.getLsbD 0 then (c >>> 1) ^^^ crcPoly else c >>> 1

/-- `n` shifts. -/
def crcShifts : Nat → Half → Half
  | 0, c => c
  | n + 1, c => crcShifts n (crcShift c)

/-- `crc_step(c, b)`: the byte XORed into the low 8 bits, then 8 shifts (R130). -/
def crcStep (c : Half) (b : Byte) : Half := crcShifts 8 (c ^^^ b.setWidth 16)

/-- The CRC register after feeding every byte in order from register `c` (R134). -/
def crcFeed (c : Half) (s : List Byte) : Half := s.foldl crcStep c

/-- `crc16(s)` (R131). -/
def crc16 (s : List Byte) : Half := crcFeed crcInitial s

/-- The two wire bytes of a CRC value, low byte first (R133). -/
def crcWire (c : Half) : List Byte := [c.extractLsb' 0 8, c.extractLsb' 8 8]

/-- `crc_bytes(s)` (R133). -/
def crcBytes (s : List Byte) : List Byte := crcWire (crc16 s)

/-- The sum of the bytes modulo 256, added to `b` (R134). -/
def sumFeed (b : Byte) (s : List Byte) : Byte := s.foldl (fun x y => x + y) b

/-- S = (Σ s[i]) mod 256 (R132). -/
def byteSum (s : List Byte) : Byte := sumFeed 0 s

/-- ((sum XOR 0xFF) + 1) AND 0xFF (R132). -/
def lrcOfSum (b : Byte) : Byte := (b ^^^ 0xFF) + 1

/-- `lrc(s)` (R132). -/
def lrc (s : List Byte) : Byte := lrcOfSum (byteSum s)

/-! ### The commands -/

/-- CRC_INIT (R140). -/
def execCrcInit (s : State) : Host.Outcome State Fault Refusal :=
  .next ((s.setCrc crcInitial).complete .ok)

/-- CRC_FEED (R141). -/
def execCrcFeed (b : Byte) (s : State) : Host.Outcome State Fault Refusal :=
  .next ((s.setCrc (crcStep s.crc b)).complete .ok)

/-- CRC_BUF (R142). -/
def execCrcBuf (s : State) : Host.Outcome State Fault Refusal :=
  if s.lenTooLong then .next (s.discard .argLength)
  else
    .next (((s.readIn.setCrc (crc16 s.inBytes)).putOut (crcBytes s.inBytes)).complete .ok)

/-- LRC_INIT (R145). -/
def execLrcInit (s : State) : Host.Outcome State Fault Refusal :=
  .next ((s.setLrcSum 0).complete .ok)

/-- LRC_FEED (R146). -/
def execLrcFeed (b : Byte) (s : State) : Host.Outcome State Fault Refusal :=
  .next ((s.setLrcSum (s.lrcSum + b)).complete .ok)

/-- LRC_BUF (R147). -/
def execLrcBuf (s : State) : Host.Outcome State Fault Refusal :=
  if s.lenTooLong then .next (s.discard .argLength)
  else
    .next (((s.readIn.setLrcSum (byteSum s.inBytes)).putOut [lrc s.inBytes]).complete .ok)

end Sys2Proof.Machine
end

