-- ==== Sys2Proof/Syntax.lean ====
section
/-! DEFINITION. The instructions of the block: the 12 command words of 30_encoding R92, one constructor per row of
spec/opcode_table.json. Operands that stand in the command word are arguments (R91); the others are registers. -/

namespace Sys2Proof

/-- A command. `port` is the port index p of field PORT, `data` the byte of field DATA (30_encoding R91). -/
inductive Instr where
  | crcInit
  | crcFeed (data : Byte)
  | crcBuf
  | lrcInit
  | lrcFeed (data : Byte)
  | lrcBuf
  | embedRtu
  | embedAscii
  | extractRtu
  | extractAscii
  | gateTx (port : Nat)
  | rxDone (port : Nat)
  deriving DecidableEq, Repr

end Sys2Proof
end

