-- ==== Sys2Proof/WellFormed.lean ====
section
/-! DEFINITION. Which terms of Instr a command word can hold: PORT is a 4-bit field (30_encoding R91). A port index of
NUM_PORTS or more is well formed: "is not illegal" (R93); its command fails with ERR_ARG_PORT. -/

namespace Sys2Proof

/-- The port index fits the 4-bit field PORT. -/
def portFits (p : Nat) : Bool := decide (p < 16)

/-- Every operand fits its field; DATA's width is in its type. -/
def Instr.wellFormed : Instr → Bool
  | .crcInit => true
  | .crcFeed _ => true
  | .crcBuf => true
  | .lrcInit => true
  | .lrcFeed _ => true
  | .lrcBuf => true
  | .embedRtu => true
  | .embedAscii => true
  | .extractRtu => true
  | .extractAscii => true
  | .gateTx p => portFits p
  | .rxDone p => portFits p

/-- The instruction is well formed. -/
abbrev Instr.WellFormed (i : Instr) : Prop := i.wellFormed = true

end Sys2Proof
end

