-- ==== Sys2Proof/Decode.lean ====
section
/-! DEFINITION. The command word: its fields (30_encoding R91), the opcode map (R92), the decoder (R93), what it
rejects and why (R94), and an encoder written from the same map. -/

namespace Sys2Proof

/-! ### Fields of format CW (R91) -/

/-- OP, bits 7:0. -/
def fieldOp (w : Word) : Byte := w.extractLsb' 0 8

/-- MODE, bit 8: 0 = RTU, 1 = ASCII. -/
def fieldMode (w : Word) : BitVec 1 := w.extractLsb' 8 1

/-- RES0, bits 11:9, must be 0. -/
def fieldRes0 (w : Word) : BitVec 3 := w.extractLsb' 9 3

/-- PORT, bits 15:12. -/
def fieldPort (w : Word) : BitVec 4 := w.extractLsb' 12 4

/-- DATA, bits 23:16. -/
def fieldData (w : Word) : Byte := w.extractLsb' 16 8

/-- RES1, bits 31:24, must be 0. -/
def fieldRes1 (w : Word) : Byte := w.extractLsb' 24 8

/-! ### The opcode map (R92) -/

/-- The rows of the opcode map, by their mnemonics. -/
inductive Opcode where
  | crcInit | crcFeed | crcBuf
  | lrcInit | lrcFeed | lrcBuf
  | embedRtu | embedAscii
  | extractRtu | extractAscii
  | gateTx | rxDone
  deriving DecidableEq, Repr

/-- The rows in the table's order. -/
def opcodeRows : List Opcode :=
  [.crcInit, .crcFeed, .crcBuf, .lrcInit, .lrcFeed, .lrcBuf,
   .embedRtu, .embedAscii, .extractRtu, .extractAscii, .gateTx, .rxDone]

/-- Column "match" of R92. -/
def Opcode.value : Opcode → Word
  | .crcInit => 0x00000001
  | .crcFeed => 0x00000002
  | .crcBuf => 0x00000003
  | .lrcInit => 0x00000004
  | .lrcFeed => 0x00000005
  | .lrcBuf => 0x00000006
  | .embedRtu => 0x00000010
  | .embedAscii => 0x00000110
  | .extractRtu => 0x00000011
  | .extractAscii => 0x00000111
  | .gateTx => 0x00000020
  | .rxDone => 0x00000021

/-- Column "mask" of R92. -/
def Opcode.mask : Opcode → Word
  | .crcInit => 0xFFFFFFFF
  | .crcFeed => 0xFF00FFFF
  | .crcBuf => 0xFFFFFFFF
  | .lrcInit => 0xFFFFFFFF
  | .lrcFeed => 0xFF00FFFF
  | .lrcBuf => 0xFFFFFFFF
  | .embedRtu => 0xFFFFFFFF
  | .embedAscii => 0xFFFFFFFF
  | .extractRtu => 0xFFFFFFFF
  | .extractAscii => 0xFFFFFFFF
  | .gateTx => 0xFFFF0FFF
  | .rxDone => 0xFFFF0FFF

/-- "A word is the command of its row exactly when (word AND mask) = match." (R92) -/
def Opcode.matches (r : Opcode) (w : Word) : Bool := (w &&& r.mask) == r.value

/-- The command of row `r` in word `w`: the operands are the fields, without extension or scaling (R91). -/
def Opcode.instr (r : Opcode) (w : Word) : Instr :=
  match r with
  | .crcInit => .crcInit
  | .crcFeed => .crcFeed (fieldData w)
  | .crcBuf => .crcBuf
  | .lrcInit => .lrcInit
  | .lrcFeed => .lrcFeed (fieldData w)
  | .lrcBuf => .lrcBuf
  | .embedRtu => .embedRtu
  | .embedAscii => .embedAscii
  | .extractRtu => .extractRtu
  | .extractAscii => .extractAscii
  | .gateTx => .gateTx (fieldPort w).toNat
  | .rxDone => .rxDone (fieldPort w).toNat

/-! ### What the decoder rejects (R94) -/

/-- Why a word is illegal: the five bullets of R94. All five complete with ERR_ILLEGAL_CMD. -/
inductive IllegalWord where
  /-- OP is none of 0x01 to 0x06, 0x10, 0x11, 0x20 and 0x21. -/
  | unknownOp
  /-- RES0 ≠ 0 or RES1 ≠ 0. -/
  | reservedBits
  /-- MODE = 1 and OP ∉ {0x10, 0x11}. -/
  | unusedMode
  /-- PORT ≠ 0 and OP ∉ {0x20, 0x21}. -/
  | unusedPort
  /-- DATA ≠ 0 and OP ∉ {0x02, 0x05}. -/
  | unusedData
  deriving DecidableEq, Repr

/-- The operations of the opcode map (R92, R94). -/
def knownOp (op : Byte) : Bool :=
  [0x01, 0x02, 0x03, 0x04, 0x05, 0x06, 0x10, 0x11, 0x20, 0x21].contains op

/-- The operations that use MODE. -/
def usesMode (op : Byte) : Bool := [0x10, 0x11].contains op

/-- The operations that use PORT. -/
def usesPort (op : Byte) : Bool := [0x20, 0x21].contains op

/-- The operations that use DATA. -/
def usesData (op : Byte) : Bool := [0x02, 0x05].contains op

/-- The first bullet of R94 that an unmatched word falls under. The order is the model's own and no behaviour depends
on it (DESIGN CHOICE, log 20). -/
def illegalCause (w : Word) : IllegalWord :=
  if knownOp (fieldOp w) = false then .unknownOp
  else if fieldRes0 w ≠ 0 ∨ fieldRes1 w ≠ 0 then .reservedBits
  else if fieldMode w = 1 ∧ usesMode (fieldOp w) = false then .unusedMode
  else if fieldPort w ≠ 0 ∧ usesPort (fieldOp w) = false then .unusedPort
  else .unusedData

/-! ### Decode (R93) and encode -/

/-- The decoder: the command of the one row that matches, or why there is none. -/
def decode (w : Word) : Except IllegalWord Instr :=
  match opcodeRows.find? (fun r => r.matches w) with
  | some r => .ok (r.instr w)
  | none => .error (illegalCause w)

/-- The row of the opcode map that an instruction belongs to. -/
def Instr.opcode : Instr → Opcode
  | .crcInit => .crcInit
  | .crcFeed _ => .crcFeed
  | .crcBuf => .crcBuf
  | .lrcInit => .lrcInit
  | .lrcFeed _ => .lrcFeed
  | .lrcBuf => .lrcBuf
  | .embedRtu => .embedRtu
  | .embedAscii => .embedAscii
  | .extractRtu => .extractRtu
  | .extractAscii => .extractAscii
  | .gateTx _ => .gateTx
  | .rxDone _ => .rxDone

/-- DATA placed at bits 23:16. -/
def placeData (b : Byte) : Word := b.setWidth 32 <<< 16

/-- PORT placed at bits 15:12. -/
def placePort (p : Nat) : Word := (BitVec.ofNat 4 p).setWidth 32 <<< 12

/-- The operand fields of an instruction, at their places in the word. -/
def Instr.operandBits : Instr → Word
  | .crcInit => 0
  | .crcFeed b => placeData b
  | .crcBuf => 0
  | .lrcInit => 0
  | .lrcFeed b => placeData b
  | .lrcBuf => 0
  | .embedRtu => 0
  | .embedAscii => 0
  | .extractRtu => 0
  | .extractAscii => 0
  | .gateTx p => placePort p
  | .rxDone p => placePort p

/-- The command word of an instruction: its row's match value with its operands in their fields (R91, R92). -/
def encode (i : Instr) : Word := i.opcode.value ||| i.operandBits

/-- The instruction the decoder reads from the word whose low `nbits` bits are those of `w`, bit 0 the least
significant (R90: "Every command is one 32-bit word"). Bits above `nbits` are 0; a word that does not fit in 32 bits is
no command. -/
def decodeTableWord (nbits w : Nat) : Option Instr :=
  if w % 2 ^ nbits < 2 ^ 32 then (decode (BitVec.ofNat 32 (w % 2 ^ nbits))).toOption else none

end Sys2Proof
end

