-- ==== Sys2Proof/Machine/Flags.lean ====
section
/-! DEFINITION. The flags of STATUS (10_state R22 to R27): the derived flag WAIT, the word a host reads, the effect of
writing it, and what a dropped write does to OVR. BUSY, DONE and ERR are set by accept and complete (Ops.lean). -/

namespace Sys2Proof.Machine

/-- STATUS.WAIT: the pending command is a GATE_TX that has passed its argument checks and whose completion condition
does not yet hold (10_state R26). A view, not stored. -/
def State.waiting (s : State) : Bool :=
  s.busy &&
    match decode s.curCmd with
    | .ok (.gateTx p) => !s.noSuchPort p && decide ((s.port p).baud ≠ 0) && s.holding p
    | _ => false

/-- A Bool as bit 0 of a word. -/
def bitOf (b : Bool) : Word := (BitVec.ofBool b).setWidth 32

/-- The word STATUS reads as: BUSY at bit 0, DONE at 1, OVR at 2, WAIT at 3, ERR at 15:8, all other bits 0
(10_state R22). -/
def State.statusWord (s : State) : Word :=
  bitOf s.busy ||| (bitOf s.done <<< 1) ||| (bitOf s.ovr <<< 2) ||| (bitOf s.waiting <<< 3) |||
    (s.err.setWidth 32 <<< 8)

/-- A write of `v` to STATUS: bit 2 = 1 clears OVR, nothing else changes, BUSY or not (10_state R25). -/
def State.writeStatus (s : State) (v : Word) : State := { s with ovr := s.ovr && !v.getLsbD 2 }

/-- A write to a writable register or IN word: dropped with OVR ← 1 while BUSY = 1, else with effect `t`
(10_state R25, 20_memory R65). -/
def State.unlessBusy (s t : State) : State := if s.busy then { s with ovr := true } else t

end Sys2Proof.Machine
end

