-- ==== Sys2Proof/Machine/Bus.lean ====
section
/-! DEFINITION. The host's side of the block: the register map (20_memory R61), the admitted accesses (R62, R66), what a
read returns and does (R63, R65, R67) and what a write does (R65, 10_state R25). -/

namespace Sys2Proof.Machine

/-- The registers and buffer words of R61. -/
inductive Reg where
  | cmd | status | saddr | fcode | len | outLen | crc | lrc
  | timeLo | timeHi | params | tickhz
  | baud (p : Nat)
  | silent (p : Nat)
  | pstat (p : Nat)
  | lastReadLo (p : Nat)
  | lastReadHi (p : Nat)
  | inWord (k : Nat)
  | outWord (k : Nat)
  deriving DecidableEq, Repr

/-! ### The register map (R61) -/

/-- The registers at offsets 0x000 to 0x0FF. -/
def globalReg (off : Nat) : Option Reg :=
  match off with
  | 0x000 => some .cmd
  | 0x004 => some .status
  | 0x008 => some .saddr
  | 0x00C => some .fcode
  | 0x010 => some .len
  | 0x014 => some .outLen
  | 0x018 => some .crc
  | 0x01C => some .lrc
  | 0x020 => some .timeLo
  | 0x024 => some .timeHi
  | 0x028 => some .params
  | 0x02C => some .tickhz
  | _ => none

/-- The registers of port `p`, by offset inside the port's 0x20 bytes. -/
def portReg (p sub : Nat) : Option Reg :=
  match sub with
  | 0x00 => some (.baud p)
  | 0x04 => some (.silent p)
  | 0x08 => some (.pstat p)
  | 0x0C => some (.lastReadLo p)
  | 0x10 => some (.lastReadHi p)
  | _ => none

/-- The register at window offset `off`; none where the map says reserved. -/
def regAt (p : Params) (off : Nat) : Option Reg :=
  if off < 0x100 then globalReg off
  else if off < 0x300 then
    if (off - 0x100) / 0x20 < p.numPorts then portReg ((off - 0x100) / 0x20) ((off - 0x100) % 0x20)
    else none
  else if off < 0x1000 then none
  else if off < 0x2000 then
    if off - 0x1000 < p.bufBytes then some (.inWord ((off - 0x1000) / 4)) else none
  else if off < 0x3000 then
    if off - 0x2000 < p.bufBytes then some (.outWord ((off - 0x2000) / 4)) else none
  else none

/-- The bus address lies in the block's 12 KiB window (20_memory R60). -/
def State.inWindow (s : State) (addr : Nat) : Bool :=
  decide (s.params.base ≤ addr) && decide (addr < s.params.base + 0x3000)

/-- The register an access reaches; none is a bus error: a width other than 32 bits, an offset that is no multiple of 4,
or a reserved offset (R62, R66). -/
def State.select (s : State) (addr width : Nat) : Option Reg :=
  if width = 4 ∧ (addr - s.params.base) % 4 = 0 then regAt s.params (addr - s.params.base) else none

/-! ### Reads -/

/-- The host gets response `r`. -/
def State.respond (s : State) (r : Response) : State := { s with response := r }

/-- The read returns `v`. -/
def State.answer (s : State) (v : Word) : State := s.respond (.data v)

/-- The read returns a draw (R67; log 4). -/
def State.answerDraw (s : State) : State :=
  { s with response := .data (Config.busyDraw s.draws), draws := s.draws + 1 }

/-- A register that a pending command may be writing: a draw when `pending`, else `v` (R67). -/
def State.answerUnless (s : State) (pending : Bool) (v : Word) : State :=
  if pending then s.answerDraw else s.answer v

/-- A buffer word, with UNDEF_READ where one of its bytes is undefined (R63). -/
def State.answerWord (s : State) (m : Memory) (k : Nat) : State :=
  (s.noteRead (Memory.defined m (4 * k) 4)).answer (wordOfBytes (Memory.read m s.draws (4 * k) 4))

/-- The pending command is RX_DONE on port `p` (R67). -/
def State.rxPending (s : State) (p : Nat) : Bool :=
  s.busy &&
    match decode s.curCmd with
    | .ok (.rxDone q) => decide (q = p)
    | _ => false

/-- LRC as it reads: lrc at 7:0, LRCSUM at 15:8 (10_state R33). -/
def State.lrcWord (s : State) : Word :=
  (lrcOfSum s.lrcSum).setWidth 32 ||| (s.lrcSum.setWidth 32 <<< 8)

/-- PARAMS: NUM_PORTS at 4:0, BUF_BYTES at 31:16 (10_state R35). -/
def paramsWord (p : Params) : Word :=
  (BitVec.ofNat 5 p.numPorts).setWidth 32 ||| ((BitVec.ofNat 16 p.bufBytes).setWidth 32 <<< 16)

/-- A host read of register `r`. -/
def State.readReg (s : State) (r : Reg) : State :=
  match r with
  | .cmd => s.answer 0
  | .status => s.answer s.statusWord
  | .saddr => s.answer s.saddr
  | .fcode => s.answer s.fcode
  | .len => s.answer s.len
  | .outLen => s.answerUnless s.busy s.outLen
  | .crc => s.answerUnless s.busy (s.crc.setWidth 32)
  | .lrc => s.answerUnless s.busy s.lrcWord
  | .timeLo => { s.answer (s.time.extractLsb' 0 32) with timeHiShadow := s.time.extractLsb' 32 32 }
  | .timeHi => s.answer s.timeHiShadow
  | .params => s.answer (paramsWord s.params)
  | .tickhz => s.answer (BitVec.ofNat 32 s.params.tickHz)
  | .baud p => s.answer (s.port p).baud
  | .silent p => s.answer (s.silent p)
  | .pstat p => s.answerUnless (s.rxPending p) (bitOf (s.port p).hasRead)
  | .lastReadLo p => s.answerUnless (s.rxPending p) ((s.port p).lastRead.extractLsb' 0 32)
  | .lastReadHi p => s.answerUnless (s.rxPending p) ((s.port p).lastRead.extractLsb' 32 32)
  | .inWord k => s.answerWord s.inBuf k
  | .outWord k => if s.busy then s.answerDraw else s.answerWord s.outBuf k

/-! ### Writes -/

/-- A host write of `v` to register `r`. A write to a read-only register or an OUT word is ignored and sets nothing,
even while BUSY (R65; log 10). -/
def State.writeReg (s : State) (r : Reg) (v : Word) : State :=
  match r with
  | .cmd => s.unlessBusy (s.accept v)
  | .status => s.writeStatus v
  | .saddr => s.unlessBusy { s with saddr := v }
  | .fcode => s.unlessBusy { s with fcode := v }
  | .len => s.unlessBusy { s with len := v }
  | .outLen => s
  | .crc => s
  | .lrc => s
  | .timeLo => s
  | .timeHi => s
  | .params => s
  | .tickhz => s
  | .baud p => s.unlessBusy (s.setPort p { s.port p with baud := v })
  | .silent _ => s
  | .pstat _ => s
  | .lastReadLo _ => s
  | .lastReadHi _ => s
  | .inWord k => s.unlessBusy { s with inBuf := Memory.write s.inBuf (4 * k) (bytesOfWord v) }
  | .outWord _ => s

/-! ### Accesses -/

/-- A bus error: the response, model fault BUS_ERROR, no other change (R66; log 8). -/
def State.refuseAccess (s : State) : State := (s.recordFault .busError).respond .busError

/-- A host read of `width` bytes at bus address `addr`. -/
def hostRead (addr width : Nat) (s : State) : Host.Outcome State Fault Refusal :=
  if s.inWindow addr then
    match s.select addr width with
    | some r => .next (s.readReg r)
    | none => .next s.refuseAccess
  else .fault (.outsideWindow addr)

/-- A host write of `v`, `width` bytes wide, at bus address `addr`. -/
def hostWrite (addr width : Nat) (v : Word) (s : State) : Host.Outcome State Fault Refusal :=
  if s.inWindow addr then
    match s.select addr width with
    | some r => .next ((s.writeReg r v).respond .written)
    | none => .next s.refuseAccess
  else .fault (.outsideWindow addr)

end Sys2Proof.Machine
end

