-- ==== Sys2Proof/Machine/Frame.lean ====
section
/-! DEFINITION. The Frame Codec: the hex code of 30_encoding R102 to R104, the frame layouts of 41_frame_codec R161 and
R162, the checks of EXTRACT in the order of R165, and the meanings of the four frame commands (R163, R164, R166,
R167). -/

namespace Sys2Proof.Machine

/-! ### Characters and hex (30_encoding R102 to R104) -/

/-- ':' -/
def charColon : Byte := 0x3A

/-- CR LF, the footer. -/
def footer : List Byte := [0x0D, 0x0A]

/-- HEX[n]: the upper-case digit of a nibble (R103). -/
def hexDigit (n : BitVec 4) : Byte :=
  if n.toNat < 10 then 0x30 + n.setWidth 8 else 0x37 + n.setWidth 8

/-- The nibble of a digit '0'..'9' or 'A'..'F'; every other character has none (R102, R104). -/
def hexVal (c : Byte) : Option (BitVec 4) :=
  if 0x30 ≤ c.toNat ∧ c.toNat ≤ 0x39 then some ((c - 0x30).setWidth 4)
  else if 0x41 ≤ c.toNat ∧ c.toNat ≤ 0x46 then some ((c - 0x37).setWidth 4)
  else none

/-- The two digits of a byte, the high nibble first (R103). -/
def hexPair (b : Byte) : List Byte := [hexDigit (b.extractLsb' 4 4), hexDigit (b.extractLsb' 0 4)]

/-- `hexenc(s)` (R103). -/
def hexenc (s : List Byte) : List Byte := s.flatMap hexPair

/-- `hexdec(h)`, none where it is not defined (R104). -/
def hexdec : List Byte → Option (List Byte)
  | [] => some []
  | [_] => none
  | hi :: lo :: h =>
    match hexVal hi, hexVal lo, hexdec h with
    | some a, some b, some d => some ((a ++ b) :: d)
    | _, _, _ => none

/-- `s[a..b)` (00_scope R12). -/
def slice (s : List Byte) (a b : Nat) : List Byte := (s.take b).drop a

/-! ### Frames (41_frame_codec R161, R162) -/

/-- `body = [a, f] ++ d`. -/
def body (a f : Byte) (d : List Byte) : List Byte := a :: f :: d

/-- `rtu_frame(a, f, d)` (R161). -/
def rtuFrame (a f : Byte) (d : List Byte) : List Byte := body a f d ++ crcBytes (body a f d)

/-- `ascii_frame(a, f, d)` (R162). -/
def asciiFrame (a f : Byte) (d : List Byte) : List Byte :=
  charColon :: (hexenc (body a f d) ++ hexenc [lrc (body a f d)] ++ footer)

/-! ### Checking a received frame (41_frame_codec R165 to R168) -/

/-- `check_header(B)`: the address, then the function code, with the exception code told apart (R168). -/
def checkHeader (a f : Byte) (b : List Byte) : Option ErrCode :=
  if b.getD 0 0 ≠ a then some .mismatchAddress
  else if b.getD 1 0 ≠ f then
    if b.getD 1 0 = f ||| 0x80 then some .deviceException else some .mismatchFunction
  else none

/-- Steps 1 and 3 to 6 of EXTRACT.RTU (R166): the payload of frame `w`, or the first check that fails. -/
def extractRtu (a f : Byte) (w : List Byte) : Except ErrCode (List Byte) :=
  if w.length < 4 then .error .frameShort
  else if w.drop (w.length - 2) ≠ crcBytes (w.take (w.length - 2)) then .error .frameChecksum
  else
    match checkHeader a f w with
    | some e => .error e
    | none => .ok (slice w 2 (w.length - 2))

/-- Steps 3 to 6 of EXTRACT.ASCII on the decoded bytes (R167). -/
def extractDecoded (a f : Byte) (b : List Byte) : Except ErrCode (List Byte) :=
  if b.drop (b.length - 1) ≠ [lrc (b.take (b.length - 1))] then .error .frameChecksum
  else
    match checkHeader a f b with
    | some e => .error e
    | none => .ok (slice b 2 (b.length - 1))

/-- Steps 1 to 6 of EXTRACT.ASCII (R167): the payload of the received characters `w`, or the first check that fails. -/
def extractAscii (a f : Byte) (w : List Byte) : Except ErrCode (List Byte) :=
  if w.length < 9 then .error .frameShort
  else if w.getD 0 0 ≠ charColon then .error .frameHeader
  else if w.drop (w.length - 2) ≠ footer then .error .frameFooter
  else if (w.length - 3) % 2 ≠ 0 then .error .frameOdd
  else
    match hexdec (slice w 1 (w.length - 2)) with
    | none => .error .frameHex
    | some b => extractDecoded a f b

/-! ### The commands -/

/-- What EMBED.m does with the frame `w` of its operands (R163, R164): argument checks, UNDEF_READ, the fit test, then
OUT and OUT_LEN. -/
def State.embed (s : State) (w : List Byte) : State :=
  match s.checkArgs with
  | some e => s.discard e
  | none =>
    if s.params.bufBytes < w.length then s.readIn.discard .argLength
    else (s.readIn.putOut w).complete .ok

/-- What EXTRACT.m does with the outcome `r` of its frame checks (R166, R167). -/
def State.extract (s : State) (r : Except ErrCode (List Byte)) : State :=
  match s.checkArgs with
  | some e => s.discard e
  | none =>
    match r with
    | .error e => s.readIn.discard e
    | .ok d => (s.readIn.putOut d).complete .ok

/-- EMBED.RTU (R163). -/
def execEmbedRtu (s : State) : Host.Outcome State Fault Refusal :=
  .next (s.embed (rtuFrame s.addressByte s.functionByte s.inBytes))

/-- EMBED.ASCII (R164). -/
def execEmbedAscii (s : State) : Host.Outcome State Fault Refusal :=
  .next (s.embed (asciiFrame s.addressByte s.functionByte s.inBytes))

/-- EXTRACT.RTU (R166). -/
def execExtractRtu (s : State) : Host.Outcome State Fault Refusal :=
  .next (s.extract (extractRtu s.addressByte s.functionByte s.inBytes))

/-- EXTRACT.ASCII (R167). -/
def execExtractAscii (s : State) : Host.Outcome State Fault Refusal :=
  .next (s.extract (extractAscii s.addressByte s.functionByte s.inBytes))

end Sys2Proof.Machine
end

