-- ==== Sys2Proof/Machine/Gate.lean ====
section
/-! DEFINITION. The Timing Controller: GATE_TX (42_timing_gate R205) and RX_DONE (R210). -/

namespace Sys2Proof.Machine

/-- FAULTS after a GATE_TX on port `p`: OVERLAP is recorded when an exchange is in flight, and the command still grants
(R209, U8; log 7). -/
def State.noteOverlap (s : State) (p : Nat) : State :=
  if (s.port p).inflight then s.recordFault .overlap else s

/-- The grant: INFLIGHT[p] ← 1, nothing else of the port (R205). -/
def State.grant (s : State) (p : Nat) : State := s.setPort p { s.port p with inflight := true }

/-- GATE_TX (R205): the argument checks, then the hold, during which nothing is written and BUSY stays 1 (R236), then
OVERLAP and the grant in one step (log 7). -/
def execGateTx (p : Nat) (s : State) : Host.Outcome State Fault Refusal :=
  if s.noSuchPort p then .next (s.complete .argPort)
  else if (s.port p).baud = 0 then .next (s.complete .argBaud)
  else if s.holding p then .next s
  else .next (((s.noteOverlap p).grant p).complete .ok)

/-- RX_DONE (R210): LAST_READ[p] ← TIME, HAS_READ[p] ← 1, INFLIGHT[p] ← 0. -/
def execRxDone (p : Nat) (s : State) : Host.Outcome State Fault Refusal :=
  if s.noSuchPort p then .next (s.complete .argPort)
  else
    .next ((s.setPort p
      { s.port p with lastRead := s.time, hasRead := true, inflight := false }).complete .ok)

end Sys2Proof.Machine
end

