-- ==== Sys2Proof/Machine/Dispatch.lean ====
section
/-! DEFINITION. What each command does: one arm per row of 30_encoding R92. -/

namespace Sys2Proof.Machine

/-- The engine step of command `i` (60_exceptions R236). -/
def exec (i : Instr) (s : State) : Host.Outcome State Fault Refusal :=
  match i with
  | .crcInit => Sys2Proof.Machine.execCrcInit s
  | .crcFeed data => Sys2Proof.Machine.execCrcFeed data s
  | .crcBuf => Sys2Proof.Machine.execCrcBuf s
  | .lrcInit => Sys2Proof.Machine.execLrcInit s
  | .lrcFeed data => Sys2Proof.Machine.execLrcFeed data s
  | .lrcBuf => Sys2Proof.Machine.execLrcBuf s
  | .embedRtu => Sys2Proof.Machine.execEmbedRtu s
  | .embedAscii => Sys2Proof.Machine.execEmbedAscii s
  | .extractRtu => Sys2Proof.Machine.execExtractRtu s
  | .extractAscii => Sys2Proof.Machine.execExtractAscii s
  | .gateTx port => Sys2Proof.Machine.execGateTx port s
  | .rxDone port => Sys2Proof.Machine.execRxDone port s

end Sys2Proof.Machine
end

