-- ==== Sys2Proof/Machine/Engine.lean ====
section
/-! DEFINITION. How the block meets one event: the engine's step (30_encoding R93, 60_exceptions R236), a host access, a
tick, an edge of the reset input (70_reset_and_hazards R260), and which event comes when none is scheduled (log 3). -/

namespace Sys2Proof.Machine

/-- The engine's step: "At completion the engine matches CUR_CMD against the rows"; the command of the row runs, or the
command completes with ERR_ILLEGAL_CMD (R93). With no command pending there is no step to take (log 14). -/
def State.engineStep (s : State) : Host.Outcome State Fault Refusal :=
  if s.busy then
    match decode s.curCmd with
    | .ok i => exec i s
    | .error _ => .next (s.complete .illegalCmd)
  else .next s

/-- One event. While reset is asserted the block takes no access and no engine step and TIME does not count (R260). -/
def State.handle (e : Event) (s : State) : Host.Outcome State Fault Refusal :=
  match e with
  | .hostRead addr width => if s.inReset then .next (s.respond .notTaken) else hostRead addr width s
  | .hostWrite addr width v =>
    if s.inReset then .next (s.respond .notTaken) else hostWrite addr width v s
  | .engine => if s.inReset then .next s else s.engineStep
  | .tick => .next (if s.inReset then s else s.tick)
  | .resetAssert => .next { s with inReset := true }
  | .resetRelease => .next (if s.inReset then s.released else s)

/-- The engine has a step to take: a command is pending and, if it is a GATE_TX, its hold is over (42_timing_gate R205,
R215). -/
def State.engineEnabled (s : State) : Bool := s.busy && !s.waiting

/-- With nothing scheduled the host is idle: the engine runs as soon as it is enabled, and otherwise the clock ticks
(DESIGN CHOICE, log 3). -/
def State.idleEvent (s : State) : Event := if s.engineEnabled then .engine else .tick

/-- The command word `w` is pending, reset is released, and the engine's moment is next: what it takes for the next step
to run the command (log 15). -/
def State.pendingNext (s : State) (w : Word) : State :=
  { s.accept w with inReset := false, schedule := .engine :: s.schedule }

end Sys2Proof.Machine
end

