-- ==== Sys2Proof/Machine/Step.lean ====
section
/-! DEFINITION. One step of the machine: the next scheduled event, or the idle event where none is scheduled. -/

namespace Sys2Proof.Machine

/-- One step: events happen one at a time, in the schedule's order (20_memory R70; log 2, log 3). -/
def step (s : State) : Host.Outcome State Fault Refusal :=
  match s.schedule with
  | e :: es => State.handle e { s with schedule := es }
  | [] => s.handle s.idleEvent

/-- `s` with the command of the table word `w` (its low `nbits` bits, 0 above them) accepted and the engine's moment
next, so that `step` runs exactly it (log 15). -/
def State.withFetchWord (s : State) (nbits w : Nat) : State :=
  s.pendingNext (BitVec.ofNat 32 (w % 2 ^ nbits))

end Sys2Proof.Machine
end

