-- ==== Sys2Proof/Safety.lean ====
section
/-! DEFINITION. The terms statements use: the invariant of the machine, what a command may be classed as, which states are
final and what is observed of them (70_reset_and_hazards R274), and a state to which one event comes next. -/

namespace Sys2Proof.Machine

/-- `s`, with event `e` next. -/
def State.sees (s : State) (e : Event) : State := { s with schedule := e :: s.schedule }

/-- The bus address of window offset `off` (00_scope R14). -/
def State.busAddr (s : State) (off : Nat) : Nat := s.params.base + off

/-- What holds of every state the block reaches. -/
structure State.Invariant (s : State) : Prop where
  /-- The parameters are legal (00_scope R10). -/
  legal : s.params.Legal
  /-- There is per-port state for each of the NUM_PORTS ports and no other (10_state R44). -/
  portCount : s.ports.length = s.params.numPorts
  /-- IN is canonical. -/
  inCanonical : Memory.Canonical s.inBuf
  /-- IN holds no byte beyond BUF_BYTES (10_state R37). -/
  inBound : ∀ a, (Memory.get s.inBuf a).isSome → a < s.params.bufBytes
  /-- OUT is canonical. -/
  outCanonical : Memory.Canonical s.outBuf
  /-- OUT holds no byte beyond BUF_BYTES (10_state R38). -/
  outBound : ∀ a, (Memory.get s.outBuf a).isSome → a < s.params.bufBytes
  /-- OUT_LEN is a number of bytes OUT has room for (10_state R31). -/
  outLenFits : s.outLen.toNat ≤ s.params.bufBytes
  /-- The OUT_LEN result bytes are defined (10_state R31). -/
  outDefined : ∀ a, a < s.outLen.toNat → (Memory.get s.outBuf a).isSome
  /-- STATUS.ERR holds a code of 60_exceptions R231. -/
  errKnown : ∃ c : ErrCode, s.err = c.byte
  /-- While a command is pending DONE is 0 (10_state R24). -/
  pendingNotDone : s.busy = true → s.done = false
  /-- ERR is 0x00 unless a command has completed since the last accept or reset (10_state R27). -/
  errNeedsDone : s.done = false → s.err = 0
  /-- LAST_READ[p] has its reset value while HAS_READ[p] = 0 (10_state R42). -/
  quietPort : ∀ q ∈ s.ports, q.hasRead = false → q.lastRead = 0

/-- The commands that write OUT (60_exceptions R237). -/
def writesOut : Instr → Bool
  | .crcInit => false
  | .crcFeed _ => false
  | .crcBuf => true
  | .lrcInit => false
  | .lrcFeed _ => false
  | .lrcBuf => true
  | .embedRtu => true
  | .embedAscii => true
  | .extractRtu => true
  | .extractAscii => true
  | .gateTx _ => false
  | .rxDone _ => false

/-- The commands that write the CRC accumulator (10_state R32). -/
def writesCrc : Instr → Bool
  | .crcInit => true
  | .crcFeed _ => true
  | .crcBuf => true
  | .lrcInit => false
  | .lrcFeed _ => false
  | .lrcBuf => false
  | .embedRtu => false
  | .embedAscii => false
  | .extractRtu => false
  | .extractAscii => false
  | .gateTx _ => false
  | .rxDone _ => false

/-- The commands that write LRCSUM (10_state R33). -/
def writesLrc : Instr → Bool
  | .crcInit => false
  | .crcFeed _ => false
  | .crcBuf => false
  | .lrcInit => true
  | .lrcFeed _ => true
  | .lrcBuf => true
  | .embedRtu => false
  | .embedAscii => false
  | .extractRtu => false
  | .extractAscii => false
  | .gateTx _ => false
  | .rxDone _ => false

/-- The port of a command that acts on one. -/
def portOf : Instr → Option Nat
  | .crcInit => none
  | .crcFeed _ => none
  | .crcBuf => none
  | .lrcInit => none
  | .lrcFeed _ => none
  | .lrcBuf => none
  | .embedRtu => none
  | .embedAscii => none
  | .extractRtu => none
  | .extractAscii => none
  | .gateTx p => some p
  | .rxDone p => some p

/-- "IN = bs and LEN = n": LEN is the length of `bs` and IN[0..LEN) holds `bs`, every byte of it defined. -/
def State.InputIs (s : State) (bs : List Byte) : Prop :=
  s.len.toNat = bs.length ∧ ∀ a, a < bs.length → Memory.get s.inBuf a = bs[a]?

/-- `o` is buffer `m` with its first bytes replaced by `bs` and every other byte as it was. -/
def OverwrittenBy (m o : Memory) (bs : List Byte) : Prop :=
  ∀ a, Memory.get o a = if a < bs.length then bs[a]? else Memory.get m a

/-- `s` after its command ended with code `c` and wrote nothing else (60_exceptions R236). -/
def State.endedWith (s : State) (c : Byte) : State := { s with err := c, busy := false, done := true }

/-- `s` after a buffer command failed with code `c` (60_exceptions R237). -/
def State.discardedWith (s : State) (c : Byte) : State :=
  { s with outLen := 0, err := c, busy := false, done := true }

/-- The frame operands pass the checks of 41_frame_codec R160. -/
def State.ArgsValid (s : State) : Prop :=
  s.saddr.toNat ≤ 247 ∧ 1 ≤ s.fcode.toNat ∧ s.fcode.toNat ≤ 127 ∧ s.len.toNat ≤ s.params.bufBytes

/-- A command is pending and reset is released, so the engine may take its step. -/
def State.Pending (s : State) : Prop := s.inReset = false ∧ s.busy = true

/-- No command is pending and reset is released: an access is taken and a write has its effect. -/
def State.Idle (s : State) : Prop := s.inReset = false ∧ s.busy = false

/-- Commands run one after another, each to its completion. -/
def execAll : List Instr → State → Host.Outcome State Fault Refusal
  | [], s => .next s
  | i :: is, s =>
    match exec i s with
    | .next t => execAll is t
    | .fault r => .fault r
    | .refused r => .refused r

/-- `w` with bit `k` of its byte `j` flipped. -/
def flipBit (w : List Byte) (j k : Nat) : List Byte := w.set j (w.getD j 0 ^^^ ((1 : Byte) <<< k))

/-- The event is a host access. -/
def Event.isAccess : Event → Bool
  | .hostRead _ _ => true
  | .hostWrite _ _ _ => true
  | .engine => false
  | .tick => false
  | .resetAssert => false
  | .resetRelease => false

/-- The run may end here: the host makes no further access, BUSY = 0, nothing is in flight and FAULTS is empty
(70_reset_and_hazards R274). -/
def State.isFinal (s : State) : Bool :=
  s.schedule.all (fun e => !e.isAccess) && !s.busy && s.ports.all (fun q => !q.inflight) &&
    decide (s.faults = FaultSet.empty)

/-- The offset of a register in the window: the first column of 20_memory R61. -/
def Reg.offset : Reg → Nat
  | .cmd => 0x000
  | .status => 0x004
  | .saddr => 0x008
  | .fcode => 0x00C
  | .len => 0x010
  | .outLen => 0x014
  | .crc => 0x018
  | .lrc => 0x01C
  | .timeLo => 0x020
  | .timeHi => 0x024
  | .params => 0x028
  | .tickhz => 0x02C
  | .baud p => 0x100 + 0x20 * p + 0x00
  | .silent p => 0x100 + 0x20 * p + 0x04
  | .pstat p => 0x100 + 0x20 * p + 0x08
  | .lastReadLo p => 0x100 + 0x20 * p + 0x0C
  | .lastReadHi p => 0x100 + 0x20 * p + 0x10
  | .inWord k => 0x1000 + 4 * k
  | .outWord k => 0x2000 + 4 * k

/-- The register exists in a block with parameters `q` (20_memory R61). -/
def Reg.Exists (q : Params) : Reg → Prop
  | .cmd => True
  | .status => True
  | .saddr => True
  | .fcode => True
  | .len => True
  | .outLen => True
  | .crc => True
  | .lrc => True
  | .timeLo => True
  | .timeHi => True
  | .params => True
  | .tickhz => True
  | .baud p => p < q.numPorts
  | .silent p => p < q.numPorts
  | .pstat p => p < q.numPorts
  | .lastReadLo p => p < q.numPorts
  | .lastReadHi p => p < q.numPorts
  | .inWord k => k < q.bufBytes / 4
  | .outWord k => k < q.bufBytes / 4

/-- The registers whose access in 20_memory R61 is RW or WO: a write to one is dropped while BUSY = 1. -/
def Reg.isWritable : Reg → Bool
  | .cmd => true
  | .status => false
  | .saddr => true
  | .fcode => true
  | .len => true
  | .outLen => false
  | .crc => false
  | .lrc => false
  | .timeLo => false
  | .timeHi => false
  | .params => false
  | .tickhz => false
  | .baud _ => true
  | .silent _ => false
  | .pstat _ => false
  | .lastReadLo _ => false
  | .lastReadHi _ => false
  | .inWord _ => true
  | .outWord _ => false

/-- The offsets of the window that 20_memory R61 calls reserved. -/
def ReservedOffset (q : Params) (off : Nat) : Prop :=
  (0x030 ≤ off ∧ off ≤ 0x0FF) ∨
  (0x100 ≤ off ∧ off ≤ 0x2FF ∧ 0x14 ≤ (off - 0x100) % 0x20) ∨
  (0x100 ≤ off ∧ off ≤ 0x2FF ∧ q.numPorts ≤ (off - 0x100) / 0x20) ∨
  (0x300 ≤ off ∧ off ≤ 0xFFF) ∨
  (0x1000 + q.bufBytes ≤ off ∧ off ≤ 0x1FFF) ∨
  (0x2000 + q.bufBytes ≤ off ∧ off ≤ 0x2FFF)

/-- The registers of 10_state R20 that a host can read: what R274 calls "every register". The words of IN and OUT, which
the register column of 20_memory R61 lists too, are buffers and not among them (DESIGN CHOICE, log 21). -/
def readableRegs (p : Params) : List Reg :=
  [.cmd, .status, .saddr, .fcode, .len, .outLen, .crc, .lrc, .timeLo, .timeHi, .params, .tickhz] ++
    (List.range p.numPorts).flatMap
      (fun q => [.baud q, .silent q, .pstat q, .lastReadLo q, .lastReadHi q])

/-- What is observed of a final state: what each register reads as, and every OUT byte whose DEF_OUT bit is 1
(70_reset_and_hazards R274). IN is left out (DESIGN CHOICE, log 21). -/
def State.observe (s : State) : List Response × Memory :=
  ((readableRegs s.params).map (fun r => (s.readReg r).response), s.outBuf)

end Sys2Proof.Machine
end

