-- ==== Sys2Proof/Certificates/Slice0/Obligations.lean ====
section
/-! DEFINITION. The statements for the provers. Each says what a numbered rule of spec/ says a command or the block
does. `s.sees e` is state `s` to which event `e` comes next; in a result `{ s with … }` every field not named is as it
was. The fields `draws`, `response` and `schedule` are the model's own (log 2, log 4, log 9). -/

open Sys2Proof Sys2Proof.Machine

/-! ### Command words -/

/-- Tier 1. The word of each row of R92, written out from its encoding, decodes to its command. -/
def Obligations.TableWordsDecodeToTheirCommands : Prop :=
  decode 0x00000001 = .ok .crcInit ∧ decode 0x00A50002 = .ok (.crcFeed 0xA5) ∧
  decode 0x00000003 = .ok .crcBuf ∧ decode 0x00000004 = .ok .lrcInit ∧
  decode 0x00A50005 = .ok (.lrcFeed 0xA5) ∧ decode 0x00000006 = .ok .lrcBuf ∧
  decode 0x00000010 = .ok .embedRtu ∧ decode 0x00000110 = .ok .embedAscii ∧
  decode 0x00000011 = .ok .extractRtu ∧ decode 0x00000111 = .ok .extractAscii ∧
  decode 0x0000A020 = .ok (.gateTx 10) ∧ decode 0x0000A021 = .ok (.rxDone 10)

/-- R92: a word is the command of its row exactly when (word AND mask) = match, its operands the fields DATA and PORT. -/
def Obligations.WordIsCommandExactlyWhenMasked : Prop :=
  ∀ w : Word,
    (decode w = .ok .crcInit ↔ w &&& 0xFFFFFFFF = 0x00000001) ∧
    (∀ b, decode w = .ok (.crcFeed b) ↔ w &&& 0xFF00FFFF = 0x00000002 ∧ b = w.extractLsb' 16 8) ∧
    (decode w = .ok .crcBuf ↔ w &&& 0xFFFFFFFF = 0x00000003) ∧
    (decode w = .ok .lrcInit ↔ w &&& 0xFFFFFFFF = 0x00000004) ∧
    (∀ b, decode w = .ok (.lrcFeed b) ↔ w &&& 0xFF00FFFF = 0x00000005 ∧ b = w.extractLsb' 16 8) ∧
    (decode w = .ok .lrcBuf ↔ w &&& 0xFFFFFFFF = 0x00000006) ∧
    (decode w = .ok .embedRtu ↔ w &&& 0xFFFFFFFF = 0x00000010) ∧
    (decode w = .ok .embedAscii ↔ w &&& 0xFFFFFFFF = 0x00000110) ∧
    (decode w = .ok .extractRtu ↔ w &&& 0xFFFFFFFF = 0x00000011) ∧
    (decode w = .ok .extractAscii ↔ w &&& 0xFFFFFFFF = 0x00000111) ∧
    (∀ p, decode w = .ok (.gateTx p) ↔
      w &&& 0xFFFF0FFF = 0x00000020 ∧ p = (w.extractLsb' 12 4).toNat) ∧
    (∀ p, decode w = .ok (.rxDone p) ↔
      w &&& 0xFFFF0FFF = 0x00000021 ∧ p = (w.extractLsb' 12 4).toNat)

/-- Decode and encode agree, on every word and every command with every operand: a word decodes to a command exactly when
the command is well formed and the word is its encoding. So decoding what is encoded gives it back, and no bit of a legal
word is ignored. -/
def Obligations.DecodeAndEncodeAgree : Prop :=
  ∀ (w : Word) (i : Instr), decode w = .ok i ↔ i.WellFormed ∧ encode i = w

/-- R94: the illegal words are those of its five bullets, 0x00000000 among them, and each completes with
ERR_ILLEGAL_CMD and changes nothing else. -/
def Obligations.IllegalWordsAreThoseListed : Prop :=
  (∀ w : Word,
    (∀ i, decode w ≠ .ok i) ↔
      w.extractLsb' 0 8 ∉
        ([0x01, 0x02, 0x03, 0x04, 0x05, 0x06, 0x10, 0x11, 0x20, 0x21] : List Byte) ∨
      (w.extractLsb' 9 3 ≠ 0 ∨ w.extractLsb' 24 8 ≠ 0) ∨
      (w.extractLsb' 8 1 = 1 ∧ w.extractLsb' 0 8 ∉ ([0x10, 0x11] : List Byte)) ∨
      (w.extractLsb' 12 4 ≠ 0 ∧ w.extractLsb' 0 8 ∉ ([0x20, 0x21] : List Byte)) ∨
      (w.extractLsb' 16 8 ≠ 0 ∧ w.extractLsb' 0 8 ∉ ([0x02, 0x05] : List Byte))) ∧
  (∀ i, decode 0x00000000 ≠ .ok i) ∧
  (∀ s : State, s.Pending → (∀ i, decode s.curCmd ≠ .ok i) →
    step (s.sees .engine) = .next { s with err := 0x01, busy := false, done := true })

/-! ### Accept, step, complete -/

/-- At the engine's moment the machine runs the command that CUR_CMD decodes to; with nothing scheduled it does so as
soon as the engine is enabled (the model's choice, log 3). Around exec the step only uses up the event. -/
def Obligations.EngineStepRunsTheDecodedCommand : Prop :=
  ∀ (s : State) (i : Instr), s.Pending → decode s.curCmd = .ok i →
    step (s.sees .engine) = exec i s ∧
    (s.schedule = [] → s.waiting = false → step s = exec i s)

/-- R235: a write of w to CMD with BUSY = 0 accepts w and changes nothing else. (`response` is the model's own, log 9.) -/
def Obligations.CmdWriteAcceptsTheWord : Prop :=
  ∀ (s : State) (w : Word), s.Idle →
    step (s.sees (.hostWrite (s.busAddr 0x000) 4 w)) =
      .next { s with curCmd := w, busy := true, done := false, err := 0x00, response := .written }

/-- Every command answers a next state, in every state. Either it has completed (BUSY = 0, DONE = 1, ERR a code of R231)
or it is a GATE_TX whose hold goes on, and nothing has changed. -/
def Obligations.CommandsCompleteWithOneKnownCode : Prop :=
  ∀ (i : Instr) (s : State), ∃ t, exec i s = .next t ∧
    ((t.busy = false ∧ t.done = true ∧
        t.err ∈ ([0x00, 0x02, 0x03, 0x04, 0x05, 0x06, 0x10, 0x11, 0x12, 0x13, 0x14, 0x15,
          0x20, 0x21, 0x30] : List Byte)) ∨
      (∃ p, i = .gateTx p ∧ s.holding p = true ∧ t = s))

/-- R23: BUSY rises only by accepting the word written to CMD, falls only at the engine's completion or by reset, and
while it is 1 no other command is accepted. That reset clears BUSY at the release of its input, and not at the assertion,
is the model's reading of R260 (log 11). -/
def Obligations.BusyIsSetByAcceptClearedByCompletion : Prop :=
  ∀ (s t : State) (e : Event), step (s.sees e) = .next t →
    (s.busy = false → t.busy = true →
      ∃ w, e = .hostWrite (s.busAddr 0x000) 4 w ∧ t.curCmd = w ∧ t.done = false ∧ t.err = 0x00) ∧
    (s.busy = true → t.busy = false →
      (e = .engine ∧ t.done = true) ∨ (e = .resetRelease ∧ s.inReset = true)) ∧
    (s.busy = true → t.busy = true → t.curCmd = s.curCmd)

/-! ### The checksum functions -/

/-- R130 and R131. crc_step: the byte XORed into the low 8 bits, then 8 right shifts, each XORed with 0xA001 when the bit
shifted out was 1. crc16 starts at 0xFFFF, takes the bytes in order, and applies nothing at the end. -/
def Obligations.CrcFollowsTheAlgorithm : Prop :=
  (∀ (c : Half) (b : Byte), ∃ r : Nat → Half,
    r 0 = c ^^^ b.setWidth 16 ∧
    (∀ k, k < 8 → r (k + 1) =
      if (r k).getLsbD 0 then (r k >>> 1) ^^^ 0xA001 else r k >>> 1) ∧
    crcStep c b = r 8) ∧
  crc16 [] = 0xFFFF ∧ (∀ s b, crc16 (s ++ [b]) = crcStep (crc16 s) b) ∧
  crc16 [0x01, 0x03, 0x00, 0x00, 0x00, 0x01] = 0x0A84

/-- R132: lrc(s) = (256 − S) mod 256 = ((S XOR 0xFF) + 1) AND 0xFF, where S is the sum of the bytes, reduced modulo 256
or not before the XOR. lrc(empty) = 0. -/
def Obligations.LrcIsTwosComplementOfTheSum : Prop :=
  (∀ s : List Byte,
    (lrc s).toNat = (256 - (s.map BitVec.toNat).sum % 256) % 256 ∧
    (lrc s).toNat = (((s.map BitVec.toNat).sum % 256 ^^^ 0xFF) + 1) &&& 0xFF ∧
    (lrc s).toNat = (((s.map BitVec.toNat).sum ^^^ 0xFF) + 1) &&& 0xFF) ∧
  lrc [] = 0x00

/-- R135(a): the CRC of a string with its own CRC bytes after it is 0. -/
def Obligations.CrcResidueIsZero : Prop :=
  ∀ s : List Byte, crc16 (s ++ crcBytes s) = 0x0000

/-- R135(d), and more: a change of one byte changes the LRC, and a change of one byte (so of any bits in it) changes the
CRC. -/
def Obligations.ChecksumsSeeEveryOneByteChange : Prop :=
  ∀ (u v : List Byte) (b c : Byte), b ≠ c →
    lrc (u ++ b :: v) ≠ lrc (u ++ c :: v) ∧ crc16 (u ++ b :: v) ≠ crc16 (u ++ c :: v)

/-! ### The checksum commands -/

/-- R140. CRC_INIT: CRC ← 0xFFFF, whatever it held; the word is 0x00000001 and no other. -/
def Obligations.CrcInitSetsTheInitialValue : Prop :=
  (∀ s : State, exec .crcInit s =
    .next { s with crc := 0xFFFF, err := 0x00, busy := false, done := true }) ∧
  (∀ w : Word, decode w = .ok .crcInit ↔ w = 0x00000001)

/-- R141. CRC_FEED: CRC ← crc_step(CRC, DATA), starting from what CRC holds. -/
def Obligations.CrcFeedFoldsOneByte : Prop :=
  (∀ (s : State) (b : Byte), exec (.crcFeed b) s =
    .next { s with crc := crcStep s.crc b, err := 0x00, busy := false, done := true }) ∧
  (∀ (w : Word) (b : Byte), decode w = .ok (.crcFeed b) ↔
    w &&& 0xFF00FFFF = 0x00000002 ∧ b = w.extractLsb' 16 8)

/-- R142. CRC_BUF over defined bytes: CRC ← crc16, OUT[0..2) ← its bytes, low first, OUT_LEN ← 2, every other byte as
before; ERR_ARG_LENGTH when LEN > BUF_BYTES. (Undefined bytes: UndefinedInputBytesAreFreeValues.) -/
def Obligations.CrcBufComputesCrcOfInput : Prop :=
  (∀ (s : State) (bs : List Byte), s.InputIs bs → bs.length ≤ s.params.bufBytes →
    ∃ o, exec .crcBuf s =
        .next { s with crc := crc16 bs, outBuf := o, outLen := 2, err := 0x00, busy := false, done := true } ∧
      OverwrittenBy s.outBuf o [(crc16 bs).extractLsb' 0 8, (crc16 bs).extractLsb' 8 8]) ∧
  (∀ s : State, s.params.bufBytes < s.len.toNat →
    exec .crcBuf s = .next (s.discardedWith 0x04)) ∧
  (∀ w : Word, decode w = .ok .crcBuf ↔ w = 0x00000003)

/-- R145. LRC_INIT: LRCSUM ← 0. -/
def Obligations.LrcInitClearsTheSum : Prop :=
  (∀ s : State, exec .lrcInit s =
    .next { s with lrcSum := 0x00, err := 0x00, busy := false, done := true }) ∧
  (∀ w : Word, decode w = .ok .lrcInit ↔ w = 0x00000004)

/-- R146. LRC_FEED: LRCSUM ← (LRCSUM + DATA) mod 256. -/
def Obligations.LrcFeedAddsOneByte : Prop :=
  (∀ (s : State) (b : Byte), ∃ x : Byte, x.toNat = (s.lrcSum.toNat + b.toNat) % 256 ∧
    exec (.lrcFeed b) s =
      .next { s with lrcSum := x, err := 0x00, busy := false, done := true }) ∧
  (∀ (w : Word) (b : Byte), decode w = .ok (.lrcFeed b) ↔
    w &&& 0xFF00FFFF = 0x00000005 ∧ b = w.extractLsb' 16 8)

/-- R147. LRC_BUF over defined bytes: LRCSUM ← the sum modulo 256, OUT[0] ← the LRC, OUT_LEN ← 1; ERR_ARG_LENGTH when
LEN > BUF_BYTES. -/
def Obligations.LrcBufComputesLrcOfInput : Prop :=
  (∀ (s : State) (bs : List Byte), s.InputIs bs → bs.length ≤ s.params.bufBytes →
    ∃ o x, exec .lrcBuf s =
        .next { s with lrcSum := x, outBuf := o, outLen := 1, err := 0x00, busy := false, done := true } ∧
      x.toNat = (bs.map BitVec.toNat).sum % 256 ∧ OverwrittenBy s.outBuf o [lrc bs]) ∧
  (∀ s : State, s.params.bufBytes < s.len.toNat →
    exec .lrcBuf s = .next (s.discardedWith 0x04)) ∧
  (∀ w : Word, decode w = .ok .lrcBuf ↔ w = 0x00000006)

/-- R148: INIT and the FEEDs of s[0], …, s[n−1] leave the accumulator that BUF leaves with IN[0..n) = s; the buffer forms
also write OUT and OUT_LEN, the streaming forms do not. -/
def Obligations.StreamingAgreesWithBuffer : Prop :=
  ∀ (r s : State) (bs : List Byte), s.InputIs bs → bs.length ≤ s.params.bufBytes →
    (∃ t u, execAll (.crcInit :: bs.map .crcFeed) r = .next t ∧ exec .crcBuf s = .next u ∧
      t.crc = u.crc ∧ t.outBuf = r.outBuf ∧ t.outLen = r.outLen ∧ u.outLen = 2 ∧
      OverwrittenBy s.outBuf u.outBuf [u.crc.extractLsb' 0 8, u.crc.extractLsb' 8 8]) ∧
    (∃ t u, execAll (.lrcInit :: bs.map .lrcFeed) r = .next t ∧ exec .lrcBuf s = .next u ∧
      t.lrcSum = u.lrcSum ∧ t.outBuf = r.outBuf ∧ t.outLen = r.outLen ∧ u.outLen = 1 ∧
      OverwrittenBy s.outBuf u.outBuf [lrc bs])

/-! ### The frame commands -/

/-- R160: the argument checks of the four frame commands, in their order and on the full 32-bit values, before anything
of IN is read. -/
def Obligations.FrameArgumentsAreCheckedInOrder : Prop :=
  ∀ (s : State) (i : Instr), i ∈ [Instr.embedRtu, .embedAscii, .extractRtu, .extractAscii] →
    (247 < s.saddr.toNat → exec i s = .next (s.discardedWith 0x02)) ∧
    (s.saddr.toNat ≤ 247 → s.fcode.toNat < 1 ∨ 127 < s.fcode.toNat →
      exec i s = .next (s.discardedWith 0x03)) ∧
    (s.saddr.toNat ≤ 247 → 1 ≤ s.fcode.toNat → s.fcode.toNat ≤ 127 →
      s.params.bufBytes < s.len.toNat → exec i s = .next (s.discardedWith 0x04))

/-- R163 after the argument checks. EMBED.RTU on a defined payload `d`: OUT ← address, function code, payload, CRC low,
CRC high; OUT_LEN ← N + 4; ERR_ARG_LENGTH when that does not fit. -/
def Obligations.EmbedRtuBuildsTheFrame : Prop :=
  ∀ (s : State) (d w : List Byte) (c : Half), s.ArgsValid → s.InputIs d →
    w = s.saddr.extractLsb' 0 8 :: s.fcode.extractLsb' 0 8 :: d → c = crc16 w →
    (d.length + 4 ≤ s.params.bufBytes →
      ∃ o, exec .embedRtu s =
          .next { s with outBuf := o, outLen := BitVec.ofNat 32 (d.length + 4), err := 0x00,
                         busy := false, done := true } ∧
        OverwrittenBy s.outBuf o (w ++ [c.extractLsb' 0 8, c.extractLsb' 8 8])) ∧
    (s.params.bufBytes < d.length + 4 → exec .embedRtu s = .next (s.discardedWith 0x04))

/-- R164 after the argument checks. EMBED.ASCII on a defined payload `d`: OUT ← ':', the hex digits of address, function
code and payload, those of their LRC, CR LF; OUT_LEN ← 2N + 9; ERR_ARG_LENGTH when that does not fit. -/
def Obligations.EmbedAsciiBuildsTheFrame : Prop :=
  ∀ (s : State) (d w : List Byte), s.ArgsValid → s.InputIs d →
    w = s.saddr.extractLsb' 0 8 :: s.fcode.extractLsb' 0 8 :: d →
    (2 * d.length + 9 ≤ s.params.bufBytes →
      ∃ o, exec .embedAscii s =
          .next { s with outBuf := o, outLen := BitVec.ofNat 32 (2 * d.length + 9), err := 0x00,
                         busy := false, done := true } ∧
        OverwrittenBy s.outBuf o ([0x3A] ++ hexenc w ++ hexenc [lrc w] ++ [0x0D, 0x0A])) ∧
    (s.params.bufBytes < 2 * d.length + 9 → exec .embedAscii s = .next (s.discardedWith 0x04))

/-- R166 and R168 after the argument checks. EXTRACT.RTU on a defined frame `w` of L bytes: the first check that fails,
in the order 0x10, 0x15, 0x20, then 0x30 or 0x21, and nothing written but OUT_LEN ← 0; else OUT ← w[2..L−2). -/
def Obligations.ExtractRtuReportsTheFirstFailure : Prop :=
  ∀ (s : State) (w : List Byte) (n : Nat) (c : Half) (a f : Byte), s.ArgsValid → s.InputIs w →
    w.length = n → c = crc16 (w.take (n - 2)) → a = s.saddr.extractLsb' 0 8 → f = s.fcode.extractLsb' 0 8 →
    (n < 4 → exec .extractRtu s = .next (s.discardedWith 0x10)) ∧
    (4 ≤ n → w.getD (n - 2) 0 ≠ c.extractLsb' 0 8 ∨ w.getD (n - 1) 0 ≠ c.extractLsb' 8 8 →
      exec .extractRtu s = .next (s.discardedWith 0x15)) ∧
    (4 ≤ n → w.getD (n - 2) 0 = c.extractLsb' 0 8 → w.getD (n - 1) 0 = c.extractLsb' 8 8 →
      (w.getD 0 0 ≠ a → exec .extractRtu s = .next (s.discardedWith 0x20)) ∧
      (w.getD 0 0 = a → w.getD 1 0 = f ||| 0x80 → exec .extractRtu s = .next (s.discardedWith 0x30)) ∧
      (w.getD 0 0 = a → w.getD 1 0 ≠ f → w.getD 1 0 ≠ f ||| 0x80 →
        exec .extractRtu s = .next (s.discardedWith 0x21)) ∧
      (w.getD 0 0 = a → w.getD 1 0 = f →
        ∃ o, exec .extractRtu s =
            .next { s with outBuf := o, outLen := BitVec.ofNat 32 (n - 4), err := 0x00,
                           busy := false, done := true } ∧
          OverwrittenBy s.outBuf o ((w.take (n - 2)).drop 2)))

/-- R167 and R168 after the argument checks, up to the decoding. EXTRACT.ASCII on `n` defined characters `w`: the first
check that fails, in the order 0x10, 0x11, 0x12, 0x13, 0x14. -/
def Obligations.ExtractAsciiChecksTheDelimitersInOrder : Prop :=
  ∀ (s : State) (w : List Byte) (n : Nat), s.ArgsValid → s.InputIs w → w.length = n →
    (n < 9 → exec .extractAscii s = .next (s.discardedWith 0x10)) ∧
    (9 ≤ n → w.getD 0 0 ≠ 0x3A → exec .extractAscii s = .next (s.discardedWith 0x11)) ∧
    (9 ≤ n → w.getD 0 0 = 0x3A →
      (w.getD (n - 2) 0 ≠ 0x0D ∨ w.getD (n - 1) 0 ≠ 0x0A →
        exec .extractAscii s = .next (s.discardedWith 0x12)) ∧
      (w.getD (n - 2) 0 = 0x0D → w.getD (n - 1) 0 = 0x0A →
        ((n - 3) % 2 ≠ 0 → exec .extractAscii s = .next (s.discardedWith 0x13)) ∧
        ((n - 3) % 2 = 0 →
          (∃ j, 1 ≤ j ∧ j < n - 2 ∧
            ¬ ((0x30 ≤ (w.getD j 0).toNat ∧ (w.getD j 0).toNat ≤ 0x39) ∨
               (0x41 ≤ (w.getD j 0).toNat ∧ (w.getD j 0).toNat ≤ 0x46))) →
          exec .extractAscii s = .next (s.discardedWith 0x14))))

/-- R167 and R168 once the characters are decoded. EXTRACT.ASCII on a frame whose hex field is that of the m bytes `b`:
0x15, then 0x20, then 0x30 or 0x21; else OUT ← b[2..m−1). -/
def Obligations.ExtractAsciiChecksTheDecodedBytes : Prop :=
  ∀ (s : State) (b : List Byte) (m : Nat) (a f : Byte), s.ArgsValid →
    s.InputIs ([0x3A] ++ hexenc b ++ [0x0D, 0x0A]) → b.length = m → 3 ≤ m →
    a = s.saddr.extractLsb' 0 8 → f = s.fcode.extractLsb' 0 8 →
    (b.getD (m - 1) 0 ≠ lrc (b.take (m - 1)) → exec .extractAscii s = .next (s.discardedWith 0x15)) ∧
    (b.getD (m - 1) 0 = lrc (b.take (m - 1)) →
      (b.getD 0 0 ≠ a → exec .extractAscii s = .next (s.discardedWith 0x20)) ∧
      (b.getD 0 0 = a → b.getD 1 0 = f ||| 0x80 →
        exec .extractAscii s = .next (s.discardedWith 0x30)) ∧
      (b.getD 0 0 = a → b.getD 1 0 ≠ f → b.getD 1 0 ≠ f ||| 0x80 →
        exec .extractAscii s = .next (s.discardedWith 0x21)) ∧
      (b.getD 0 0 = a → b.getD 1 0 = f →
        ∃ o, exec .extractAscii s =
            .next { s with outBuf := o, outLen := BitVec.ofNat 32 (m - 3), err := 0x00,
                           busy := false, done := true } ∧
          OverwrittenBy s.outBuf o ((b.take (m - 1)).drop 2)))

/-- R103 and R104, with HEX = "0123456789ABCDEF": hexenc gives two digits a byte, that of the high nibble first; hexdec is
defined exactly on strings of even length over HEX, and is the inverse of hexenc both ways. -/
def Obligations.HexCodeIsInvertible : Prop :=
  ∀ hex : List Byte, hex = [0x30, 0x31, 0x32, 0x33, 0x34, 0x35, 0x36, 0x37, 0x38, 0x39,
      0x41, 0x42, 0x43, 0x44, 0x45, 0x46] →
    (∀ s : List Byte, (hexenc s).length = 2 * s.length ∧
      ∀ i, i < s.length →
        (hexenc s)[2 * i]? = hex[((s.getD i 0).extractLsb' 4 4).toNat]? ∧
        (hexenc s)[2 * i + 1]? = hex[((s.getD i 0).extractLsb' 0 4).toNat]?) ∧
    (∀ s : List Byte, hexdec (hexenc s) = some s) ∧
    (∀ h d : List Byte, hexdec h = some d → hexenc d = h) ∧
    (∀ h : List Byte, (hexdec h).isSome = true ↔ h.length % 2 = 0 ∧ ∀ c ∈ h, c ∈ hex)

/-- R171, frame symmetry: what EMBED.m put in OUT, copied to IN, EXTRACT.m takes back to the payload, in both modes. -/
def Obligations.ExtractOfEmbedIsThePayload : Prop :=
  ∀ (s t u : State) (d : List Byte) (e x : Instr),
    (e, x) ∈ [(Instr.embedRtu, Instr.extractRtu), (.embedAscii, .extractAscii)] →
    s.params.Legal → s.ArgsValid → s.InputIs d → exec e s = .next t → t.err = 0x00 →
    u.params = s.params → u.saddr = s.saddr → u.fcode = s.fcode → u.len = t.outLen →
    (∀ a, a < t.outLen.toNat → Memory.get u.inBuf a = Memory.get t.outBuf a) →
    ∃ v, exec x u = .next v ∧ v.err = 0x00 ∧ v.outLen.toNat = d.length ∧
      ∀ a, a < d.length → Memory.get v.outBuf a = d[a]?

/-- R172, checksum sensitivity. One bit flipped outside the checksum field makes EXTRACT.m end with a FrameError code: in
RTU 0x15; in ASCII 0x11 for the header, 0x12 for the footer, and 0x14 or 0x15 for a hex character. -/
def Obligations.ExtractSeesEverySingleBitFlip : Prop :=
  ∀ (s : State) (a f : Byte) (d : List Byte) (j k : Nat), s.ArgsValid → k < 8 →
    (s.InputIs (flipBit (rtuFrame a f d) j k) → j < d.length + 2 →
      exec .extractRtu s = .next (s.discardedWith 0x15)) ∧
    (s.InputIs (flipBit (asciiFrame a f d) j k) →
      (j = 0 → exec .extractAscii s = .next (s.discardedWith 0x11)) ∧
      (2 * d.length + 7 ≤ j → j < 2 * d.length + 9 → exec .extractAscii s = .next (s.discardedWith 0x12)) ∧
      (1 ≤ j → j < 2 * d.length + 5 →
        exec .extractAscii s = .next (s.discardedWith 0x14) ∨
        exec .extractAscii s = .next (s.discardedWith 0x15)))

/-- R173, mismatch detection, for a frame with a correct checksum, in both modes: a different address gives 0x20; a
different function code gives 0x21, except FCODE OR 0x80, which gives 0x30. -/
def Obligations.MismatchedResponsesAreReported : Prop :=
  ∀ (s : State) (i : Instr) (a f : Byte) (d w : List Byte), s.ArgsValid → s.InputIs w →
    (i, w) ∈ [(Instr.extractRtu, rtuFrame a f d), (.extractAscii, asciiFrame a f d)] →
    (a ≠ s.saddr.extractLsb' 0 8 → exec i s = .next (s.discardedWith 0x20)) ∧
    (a = s.saddr.extractLsb' 0 8 → f ≠ s.fcode.extractLsb' 0 8 →
      (f = s.fcode.extractLsb' 0 8 ||| 0x80 → exec i s = .next (s.discardedWith 0x30)) ∧
      (f ≠ s.fcode.extractLsb' 0 8 ||| 0x80 → exec i s = .next (s.discardedWith 0x21)))

/-- The model's choice (log 5): a buffer command that reads an undefined byte of IN records UNDEF_READ, uses up one draw,
and is otherwise the command on the bytes of IN with a free value for each undefined one. -/
def Obligations.UndefinedInputBytesAreFreeValues : Prop :=
  ∀ (s t : State) (i : Instr) (bs : List Byte), writesOut i = true → s.lenTooLong = false →
    (s.checkArgs = none ∨ i = .crcBuf ∨ i = .lrcBuf) →
    bs.length = s.len.toNat →
    (∀ a, a < bs.length →
      bs[a]? = some ((Memory.get s.inBuf a).getD (Config.undefinedByte s.draws a))) →
    (∃ a, a < s.len.toNat ∧ Memory.get s.inBuf a = none) →
    exec i { s with inBuf := Memory.write [] 0 bs } = .next t →
    exec i s = .next { t with inBuf := s.inBuf, faults := s.faults.add .undefRead, draws := s.draws + 1 }

/-! ### The timing commands -/

/-- R205 (with R204): the argument checks in order; the hold while HAS_READ = 1 and elapsed < SILENT, with nothing written;
else the grant, stated here with nothing in flight on `p` (in flight: OverlappingGateTxIsRecorded). The checks and the
hold are stated of a port in flight too: that no OVERLAP is recorded before the completing step is the model's reading
of R205 and R209 (log 7). -/
def Obligations.GateTxHoldsThenGrants : Prop :=
  ∀ (s : State) (p : Nat),
    (s.params.numPorts ≤ p → exec (.gateTx p) s = .next (s.endedWith 0x05)) ∧
    (∀ q : Port, p < s.params.numPorts → s.ports[p]? = some q →
      (q.baud = 0 → exec (.gateTx p) s = .next (s.endedWith 0x06)) ∧
      (q.baud ≠ 0 →
        (q.hasRead = true → (s.time - q.lastRead).toNat < (silentOf s.params q.baud).toNat →
          exec (.gateTx p) s = .next s) ∧
        (q.hasRead = false ∨ (silentOf s.params q.baud).toNat ≤ (s.time - q.lastRead).toNat →
          q.inflight = false →
          exec (.gateTx p) s =
            .next { s with ports := s.ports.set p { q with inflight := true }, err := 0x00,
                           busy := false, done := true })))

/-- The model's reading of R209 (log 7; 93 U8): a GATE_TX that is granted while an exchange is in flight on its port
records OVERLAP, and still grants. -/
def Obligations.OverlappingGateTxIsRecorded : Prop :=
  ∀ (s : State) (p : Nat) (q : Port), p < s.params.numPorts → s.ports[p]? = some q → q.baud ≠ 0 →
    q.inflight = true → s.holding p = false →
    exec (.gateTx p) s =
      .next { s with faults := s.faults.add .overlap, err := 0x00, busy := false, done := true }

/-- R210. RX_DONE: ERR_ARG_PORT, or LAST_READ[p] ← TIME, HAS_READ[p] ← 1, INFLIGHT[p] ← 0, BAUD[p] and every other port
as before, BAUD[p] = 0 no error. -/
def Obligations.RxDoneStampsThePort : Prop :=
  (∀ (s : State) (p : Nat),
    (s.params.numPorts ≤ p → exec (.rxDone p) s = .next (s.endedWith 0x05)) ∧
    (∀ q : Port, p < s.params.numPorts → s.ports[p]? = some q →
      exec (.rxDone p) s =
        .next { s with ports := s.ports.set p { q with lastRead := s.time, hasRead := true, inflight := false },
                       err := 0x00, busy := false, done := true })) ∧
  (∀ (w : Word) (p : Nat), decode w = .ok (.rxDone p) ↔
    w &&& 0xFFFF0FFF = 0x00000021 ∧ p = (w.extractLsb' 12 4).toNat)

/-- R201: for B ≥ 1 silent_ticks is (77·TICK_HZ + 2B − 1) div (2B), the least n with n·2B ≥ 77·TICK_HZ (38.5/B seconds,
never rounded down), at most 3,850,000,000. For BAUD = 0 SILENT reads 0 (R40). -/
def Obligations.SilentIsTheCeilingOfThePeriod : Prop :=
  ∀ (p : Params) (b : Word), p.Legal →
    silentOf p 0 = 0 ∧
    (b ≠ 0 → ∃ n, (silentOf p b).toNat = n ∧ n ≤ 3850000000 ∧
      n = (77 * p.tickHz + 2 * b.toNat - 1) / (2 * b.toNat) ∧
      77 * p.tickHz ≤ n * (2 * b.toNat) ∧ ∀ m, 77 * p.tickHz ≤ m * (2 * b.toNat) → n ≤ m)

/-- R26: WAIT is 1 exactly when the pending command is a GATE_TX that has passed its argument checks and whose
completion condition does not yet hold. -/
def Obligations.WaitIsAHeldGateTx : Prop :=
  ∀ s : State, s.waiting = true ↔
    s.busy = true ∧ ∃ p, decode s.curCmd = .ok (.gateTx p) ∧ p < s.params.numPorts ∧
      (s.port p).baud ≠ 0 ∧ (s.port p).hasRead = true ∧
      (s.time - (s.port p).lastRead).toNat < (silentOf s.params (s.port p).baud).toNat

/-- R203, R206 and R207, of the whole machine: whatever the event, an exchange comes to be in flight on port `p` only by
the engine granting a GATE_TX on `p` at a TIME when `p` has been silent for SILENT[p] ticks since its last completed
read, or has had no read. -/
def Obligations.GrantsComeOnlyAfterTheSilence : Prop :=
  ∀ (s t : State) (e : Event) (p : Nat), step (s.sees e) = .next t →
    (s.port p).inflight = false → (t.port p).inflight = true →
    e = .engine ∧ s.busy = true ∧ decode s.curCmd = .ok (.gateTx p) ∧ t.err = 0x00 ∧
      ((s.port p).hasRead = false ∨
        (silentOf s.params (s.port p).baud).toNat ≤ (s.time - (s.port p).lastRead).toNat)

/-- R205 and R215 under the model's idle rule (log 3): with nothing scheduled, a held GATE_TX is granted after exactly
the ticks that are left of SILENT[p]. -/
def Obligations.HoldLastsTheRestOfTheSilence : Prop :=
  ∀ (s : State) (p : Nat), s.Pending → s.schedule = [] → decode s.curCmd = .ok (.gateTx p) →
    s.waiting = true →
    ∃ n t, n = (silentOf s.params (s.port p).baud).toNat - (s.time - (s.port p).lastRead).toNat ∧
      Host.Core.run core (n + 1) s = .next t ∧ t.busy = false ∧ t.done = true ∧ t.err = 0x00 ∧
      t.time = s.time + BitVec.ofNat 64 n ∧
      ∀ k, k < n → ∃ u, Host.Core.run core k s = .next u ∧ u.waiting = true

/-! ### What commands leave unchanged, and errors -/

/-- R48: which state a command writes. No command writes IN, SADDR, FCODE, LEN, BAUD, OVR, TIME, TIME_HI_SHADOW or
CUR_CMD; only CRC commands write CRC, only LRC commands LRCSUM, only the buffer commands OUT and OUT_LEN, and a port
changes only by the timing command that names it. -/
def Obligations.CommandsWriteOnlyTheirOwnState : Prop :=
  ∀ (i : Instr) (s t : State), exec i s = .next t →
    t.inBuf = s.inBuf ∧ t.saddr = s.saddr ∧ t.fcode = s.fcode ∧ t.len = s.len ∧ t.ovr = s.ovr ∧
    t.time = s.time ∧ t.timeHiShadow = s.timeHiShadow ∧ t.curCmd = s.curCmd ∧ t.params = s.params ∧
    t.inReset = s.inReset ∧ t.response = s.response ∧ t.schedule = s.schedule ∧
    (writesCrc i = false → t.crc = s.crc) ∧ (writesLrc i = false → t.lrcSum = s.lrcSum) ∧
    (writesOut i = false → t.outBuf = s.outBuf ∧ t.outLen = s.outLen ∧ t.draws = s.draws) ∧
    (∀ p, portOf i ≠ some p → t.port p = s.port p) ∧
    (∀ p, (t.port p).baud = (s.port p).baud) ∧
    (∀ p, i ≠ .rxDone p → (t.port p).lastRead = (s.port p).lastRead ∧ (t.port p).hasRead = (s.port p).hasRead) ∧
    (∀ f, f ≠ .undefRead → f ≠ .overlap → t.faults.has f = s.faults.has f)

/-- R38: OUT changes only below the OUT_LEN that a successful buffer command leaves; every byte from OUT_LEN on keeps
its value. -/
def Obligations.OutBeyondOutLenIsUnchanged : Prop :=
  ∀ (i : Instr) (s t : State), s.params.Legal → exec i s = .next t →
    ∀ a, t.outLen.toNat ≤ a → Memory.get t.outBuf a = Memory.get s.outBuf a

/-- R237: a buffer command that ends with a nonzero code leaves OUT_LEN = 0; the others, and an illegal word, leave
OUT_LEN alone when they fail; no failing command writes a byte of OUT, CRC or LRCSUM. -/
def Obligations.FailedCommandsDiscardTheirOutput : Prop :=
  ∀ s t : State, s.Pending → step (s.sees .engine) = .next t → t.busy = false → t.err ≠ 0x00 →
    t.outBuf = s.outBuf ∧ t.crc = s.crc ∧ t.lrcSum = s.lrcSum ∧
    (∀ i, decode s.curCmd = .ok i → writesOut i = true → t.outLen = 0) ∧
    (∀ i, decode s.curCmd = .ok i → writesOut i = false → t.outLen = s.outLen) ∧
    ((∀ i, decode s.curCmd ≠ .ok i) → t.outLen = s.outLen)

/-- R239: errors are precise. A failed command changes ERR, BUSY, DONE, the OUT_LEN of R237 and, in the model, what
UNDEF_READ records; everything else is as it was. -/
def Obligations.FailedCommandsArePrecise : Prop :=
  ∀ s t : State, s.Pending → step (s.sees .engine) = .next t → t.busy = false → t.err ≠ 0x00 →
    t = { s with err := t.err, busy := false, done := true, outLen := t.outLen, faults := t.faults, draws := t.draws } ∧
    t.faults.overlap = s.faults.overlap ∧ t.faults.busError = s.faults.busError

/-! ### Host accesses -/

/-- R61: the register map. At a 4-aligned offset of the window there is exactly the register the map puts there. -/
def Obligations.RegisterMapIsTheTable : Prop :=
  ∀ (q : Params) (off : Nat) (r : Reg), q.Legal → off < 0x3000 → off % 4 = 0 →
    (regAt q off = some r ↔ r.offset = off ∧ r.Exists q)

/-- R66: an access to a reserved offset, or of another width or alignment, gets a bus error and changes nothing but the
model's FAULTS, BUSY or not. -/
def Obligations.BadAccessesGetABusError : Prop :=
  ∀ (s : State) (off width : Nat) (v : Word), s.inReset = false → s.params.Legal → off < 0x3000 →
    width ≠ 4 ∨ off % 4 ≠ 0 ∨ ReservedOffset s.params off →
    step (s.sees (.hostRead (s.busAddr off) width)) =
      .next { s with faults := s.faults.add .busError, response := .busError } ∧
    step (s.sees (.hostWrite (s.busAddr off) width v)) =
      .next { s with faults := s.faults.add .busError, response := .busError }

/-- The model's choice (log 8): an access outside the window is not the block's and stops the model. -/
def Obligations.AccessOutsideTheWindowStops : Prop :=
  ∀ (s : State) (addr width : Nat) (v : Word), s.inReset = false →
    addr < s.params.base ∨ s.params.base + 0x3000 ≤ addr →
    step (s.sees (.hostRead addr width)) = .fault (.outsideWindow addr) ∧
    step (s.sees (.hostWrite addr width v)) = .fault (.outsideWindow addr)

/-- R28, R29, R30 and R39: with BUSY = 0 a write to SADDR, FCODE, LEN or BAUD[p] stores all 32 bits and changes nothing
else; a read returns the register, BUSY or not. -/
def Obligations.OperandRegistersAreReadWrite : Prop :=
  (∀ (s : State) (v : Word), s.Idle →
    step (s.sees (.hostWrite (s.busAddr 0x008) 4 v)) = .next { s with saddr := v, response := .written } ∧
    step (s.sees (.hostWrite (s.busAddr 0x00C) 4 v)) = .next { s with fcode := v, response := .written } ∧
    step (s.sees (.hostWrite (s.busAddr 0x010) 4 v)) = .next { s with len := v, response := .written } ∧
    ∀ p q, s.params.Legal → p < s.params.numPorts → s.ports[p]? = some q →
      step (s.sees (.hostWrite (s.busAddr (0x100 + 0x20 * p)) 4 v)) =
        .next { s with ports := s.ports.set p { q with baud := v }, response := .written }) ∧
  (∀ s : State, s.inReset = false →
    step (s.sees (.hostRead (s.busAddr 0x008) 4)) = .next { s with response := .data s.saddr } ∧
    step (s.sees (.hostRead (s.busAddr 0x00C) 4)) = .next { s with response := .data s.fcode } ∧
    step (s.sees (.hostRead (s.busAddr 0x010) 4)) = .next { s with response := .data s.len } ∧
    ∀ p q, s.params.Legal → p < s.params.numPorts → s.ports[p]? = some q →
      step (s.sees (.hostRead (s.busAddr (0x100 + 0x20 * p)) 4)) = .next { s with response := .data q.baud } ∧
      step (s.sees (.hostRead (s.busAddr (0x104 + 0x20 * p)) 4)) =
        .next { s with response := .data (silentOf s.params q.baud) })

/-- R63: a write to IN word k sets IN[4k+j] to byte lane j and makes it defined; every other byte of IN, and all else, is
as before. -/
def Obligations.InWordWriteSetsFourBytes : Prop :=
  ∀ (s : State) (k : Nat) (v : Word), s.Idle → s.params.Legal → k < s.params.bufBytes / 4 →
    ∃ m, step (s.sees (.hostWrite (s.busAddr (0x1000 + 4 * k)) 4 v)) =
        .next { s with inBuf := m, response := .written } ∧
      (∀ j, j < 4 → Memory.get m (4 * k + j) = some (v.extractLsb' (8 * j) 8)) ∧
      (∀ a, a < 4 * k ∨ 4 * k + 4 ≤ a → Memory.get m a = Memory.get s.inBuf a)

/-- R63: a read of an OUT word with BUSY = 0, and of an IN word at any time, returns its four bytes little-endian; with a
byte not written since reset it records UNDEF_READ (the byte's value is then free, log 5). -/
def Obligations.BufferWordReadIsLittleEndian : Prop :=
  ∀ (s : State) (k off : Nat) (m : Memory), s.inReset = false → s.params.Legal → k < s.params.bufBytes / 4 →
    ((off = 0x1000 ∧ m = s.inBuf) ∨ (off = 0x2000 ∧ m = s.outBuf ∧ s.busy = false)) →
    (∀ b0 b1 b2 b3, Memory.get m (4 * k) = some b0 → Memory.get m (4 * k + 1) = some b1 →
      Memory.get m (4 * k + 2) = some b2 → Memory.get m (4 * k + 3) = some b3 →
      step (s.sees (.hostRead (s.busAddr (off + 4 * k)) 4)) =
        .next { s with response := .data (b3 ++ b2 ++ b1 ++ b0) }) ∧
    ((∃ j, j < 4 ∧ Memory.get m (4 * k + j) = none) →
      ∃ v, step (s.sees (.hostRead (s.busAddr (off + 4 * k)) 4)) =
        .next { s with faults := s.faults.add .undefRead, draws := s.draws + 1, response := .data v })

/-- R25: with BUSY = 1 a write to a writable register or IN word is dropped and sets OVR, whatever it writes. -/
def Obligations.WritesWhileBusyAreDropped : Prop :=
  ∀ (s : State) (r : Reg) (v : Word), s.Pending → s.params.Legal → r.Exists s.params → r.isWritable = true →
    step (s.sees (.hostWrite (s.busAddr r.offset) 4 v)) =
      .next { s with ovr := true, response := .written }

/-- R65 (the model follows it over R25 for read-only registers, log 10): a write to a read-only register or an OUT word
is ignored and sets nothing, BUSY or not. A write to STATUS clears OVR when its bit 2 is 1 and does nothing else. -/
def Obligations.ReadOnlyWritesAreIgnored : Prop :=
  (∀ (s : State) (r : Reg) (v : Word), s.inReset = false → s.params.Legal → r.Exists s.params →
    r.isWritable = false → r ≠ .status →
    step (s.sees (.hostWrite (s.busAddr r.offset) 4 v)) = .next { s with response := .written }) ∧
  (∀ (s : State) (v : Word), s.inReset = false →
    (v.getLsbD 2 = true →
      step (s.sees (.hostWrite (s.busAddr 0x004) 4 v)) = .next { s with ovr := false, response := .written }) ∧
    (v.getLsbD 2 = false →
      step (s.sees (.hostWrite (s.busAddr 0x004) 4 v)) = .next { s with response := .written }))

/-- R22: a read of STATUS returns BUSY, DONE, OVR, WAIT and ERR in their places and 0 in every other bit, and changes
nothing. -/
def Obligations.StatusReadHasTheFieldsInPlace : Prop :=
  ∀ s : State, s.inReset = false →
    ∃ v : Word, step (s.sees (.hostRead (s.busAddr 0x004) 4)) = .next { s with response := .data v } ∧
      v.getLsbD 0 = s.busy ∧ v.getLsbD 1 = s.done ∧ v.getLsbD 2 = s.ovr ∧ v.getLsbD 3 = s.waiting ∧
      v.extractLsb' 4 4 = 0 ∧ v.extractLsb' 8 8 = s.err ∧ v.extractLsb' 16 16 = 0

/-- R21, R31, R32, R33, R35, R36, R41, R42 and R67: what the read-only registers read as; a read changes nothing. CMD,
PARAMS and TICKHZ read so BUSY or not; PSTAT[p] and LAST_READ[p] unless an RX_DONE on p is pending; OUT_LEN, CRC and LRC
with BUSY = 0. -/
def Obligations.ReadOnlyRegistersReadTheirFields : Prop :=
  ∀ s : State, s.inReset = false → s.params.Legal →
    step (s.sees (.hostRead (s.busAddr 0x000) 4)) = .next { s with response := .data 0 } ∧
    (∃ v : Word, step (s.sees (.hostRead (s.busAddr 0x028) 4)) = .next { s with response := .data v } ∧
      (v.extractLsb' 0 5).toNat = s.params.numPorts ∧ v.extractLsb' 5 11 = 0 ∧
      (v.extractLsb' 16 16).toNat = s.params.bufBytes) ∧
    (∃ v : Word, step (s.sees (.hostRead (s.busAddr 0x02C) 4)) = .next { s with response := .data v } ∧
      v.toNat = s.params.tickHz) ∧
    (∀ p q, p < s.params.numPorts → s.ports[p]? = some q →
      (s.busy = false ∨ decode s.curCmd ≠ .ok (.rxDone p)) →
      step (s.sees (.hostRead (s.busAddr (0x108 + 0x20 * p)) 4)) =
        .next { s with response := .data (if q.hasRead then 1 else 0) } ∧
      step (s.sees (.hostRead (s.busAddr (0x10C + 0x20 * p)) 4)) =
        .next { s with response := .data (q.lastRead.extractLsb' 0 32) } ∧
      step (s.sees (.hostRead (s.busAddr (0x110 + 0x20 * p)) 4)) =
        .next { s with response := .data (q.lastRead.extractLsb' 32 32) }) ∧
    (s.busy = false →
      step (s.sees (.hostRead (s.busAddr 0x014) 4)) = .next { s with response := .data s.outLen } ∧
      (∃ v : Word, step (s.sees (.hostRead (s.busAddr 0x018) 4)) = .next { s with response := .data v } ∧
        v.extractLsb' 0 16 = s.crc ∧ v.extractLsb' 16 16 = 0) ∧
      (∃ v : Word, step (s.sees (.hostRead (s.busAddr 0x01C) 4)) = .next { s with response := .data v } ∧
        (v.extractLsb' 0 8).toNat = (0x100 - s.lrcSum.toNat) % 256 ∧ v.extractLsb' 8 8 = s.lrcSum ∧
        v.extractLsb' 16 16 = 0))

/-- R67: with BUSY = 1 a read of OUT_LEN, CRC, LRC or an OUT word, and of the PSTAT and LAST_READ of the port of a
pending RX_DONE, returns a draw and changes no state of the block. (The draw is a free value, log 4.) -/
def Obligations.ResultReadsWhileBusyAreDraws : Prop :=
  ∀ (s : State) (r : Reg), s.Pending → s.params.Legal → r.Exists s.params →
    (r = .outLen ∨ r = .crc ∨ r = .lrc ∨ (∃ k, r = .outWord k) ∨
      ∃ p, decode s.curCmd = .ok (.rxDone p) ∧ (r = .pstat p ∨ r = .lastReadLo p ∨ r = .lastReadHi p)) →
    step (s.sees (.hostRead (s.busAddr r.offset) 4)) =
      .next { s with draws := s.draws + 1, response := .data (Config.busyDraw s.draws) }

/-- R34 and R65: a read of TIME_LO returns TIME[31:0], copies TIME[63:32] into TIME_HI_SHADOW and changes nothing else; a
read of TIME_HI returns TIME_HI_SHADOW and changes nothing. So TIME_LO then TIME_HI is one coherent 64-bit value, however
many ticks come between. -/
def Obligations.TimeReadsAreCoherent : Prop :=
  (∀ s : State, s.inReset = false →
    step (s.sees (.hostRead (s.busAddr 0x020) 4)) =
      .next { s with timeHiShadow := s.time.extractLsb' 32 32, response := .data (s.time.extractLsb' 0 32) } ∧
    step (s.sees (.hostRead (s.busAddr 0x024) 4)) = .next { s with response := .data s.timeHiShadow }) ∧
  (∀ (s : State) (n : Nat), s.inReset = false →
    s.schedule = .hostRead (s.busAddr 0x020) 4 ::
      (List.replicate n .tick ++ [.hostRead (s.busAddr 0x024) 4]) →
    ∃ t u lo hi, step s = .next t ∧ t.response = .data lo ∧
      Host.Core.run core (n + 2) s = .next u ∧ u.response = .data hi ∧ hi ++ lo = s.time ∧
      u.time = s.time + BitVec.ofNat 64 n)

/-! ### The clock and reset -/

/-- R34: TIME is changed by a tick, which adds 1 modulo 2^64 and changes nothing else, and by reset; by nothing else, so
by no host access and no command. That reset sets TIME at the release of its input, and that its assertion leaves TIME
alone, is the model's reading of R260 (log 11). -/
def Obligations.TimeCountsOnlyTicks : Prop :=
  (∀ s : State, s.inReset = false → step (s.sees .tick) = .next { s with time := s.time + 1 }) ∧
  (∀ (s t : State) (e : Event), step (s.sees e) = .next t → e ≠ .tick → e ≠ .resetRelease → t.time = s.time)

/-- R260 and R262: while reset is asserted no access, engine step or tick has an effect; on release every piece of state
has its reset value and any pending command is gone, but FAULTS keeps its members. -/
def Obligations.ResetGivesEveryFieldItsResetValue : Prop :=
  (∀ s : State, step (s.sees .resetAssert) = .next { s with inReset := true }) ∧
  (∀ (s t : State) (e : Event), s.inReset = true → e ≠ .resetRelease → step (s.sees e) = .next t →
    t = { s with response := t.response }) ∧
  (∀ s : State, s.inReset = true → ∃ t, step (s.sees .resetRelease) = .next t ∧
    t.busy = false ∧ t.done = false ∧ t.ovr = false ∧ t.waiting = false ∧ t.err = 0x00 ∧
    t.saddr = 0 ∧ t.fcode = 0 ∧ t.len = 0 ∧ t.outLen = 0 ∧ t.crc = 0xFFFF ∧ t.lrcSum = 0 ∧
    t.time = 0 ∧ t.timeHiShadow = 0 ∧ t.curCmd = 0 ∧
    (∀ a, Memory.get t.inBuf a = none ∧ Memory.get t.outBuf a = none) ∧
    t.ports = List.replicate s.params.numPorts
      { baud := 9600, lastRead := 0, hasRead := false, inflight := false } ∧
    t.params = s.params ∧ t.inReset = false ∧ t.faults = s.faults)

/-- R47: the state after reset of the reference block (R10); SILENT[p] is silent_ticks(9600) = 4011 (R40). -/
def Obligations.ResetStateHasTheSpecsValues : Prop :=
  ∃ t : State, t = State.reset ∧
    t.busy = false ∧ t.done = false ∧ t.ovr = false ∧ t.waiting = false ∧ t.err = 0x00 ∧
    t.saddr = 0 ∧ t.fcode = 0 ∧ t.len = 0 ∧ t.outLen = 0 ∧ t.crc = 0xFFFF ∧ t.lrcSum = 0 ∧
    t.time = 0 ∧ t.timeHiShadow = 0 ∧ t.curCmd = 0 ∧ t.inBuf = [] ∧ t.outBuf = [] ∧
    paramsWord t.params = 0x04000004 ∧ t.params.tickHz = 1000000 ∧ t.ports.length = 4 ∧
    (∀ q ∈ t.ports, q.baud = 9600 ∧ q.hasRead = false ∧ q.lastRead = 0 ∧ q.inflight = false ∧
      silentOf t.params q.baud = 4011) ∧
    (∀ f, t.faults.has f = false)

/-! ### Rules of the whole machine -/

/-- The invariant holds after reset. -/
def Obligations.ResetStateMeetsTheInvariant : Prop := State.reset.Invariant

/-- Every step keeps the invariant: buffers canonical and inside BUF_BYTES, OUT[0..OUT_LEN) defined, one state for each
port, ERR a known code, DONE = 0 while BUSY, LAST_READ untouched before the first read. -/
def Obligations.EveryStepKeepsTheInvariant : Prop :=
  ∀ s t : State, s.Invariant → step s = .next t → t.Invariant

/-- R245 and R262: no step removes a member of FAULTS, reset included. -/
def Obligations.FaultsAreNeverRemoved : Prop :=
  ∀ (s t : State) (f : ModelFault), step s = .next t → s.faults.has f = true → t.faults.has f = true

/-- R71 and R73: between accept and completion nothing changes the command's word or its operands. -/
def Obligations.OperandsAreFrozenWhileBusy : Prop :=
  ∀ s t : State, step s = .next t → s.busy = true → t.busy = true →
    t.curCmd = s.curCmd ∧ t.saddr = s.saddr ∧ t.fcode = s.fcode ∧ t.len = s.len ∧ t.inBuf = s.inBuf ∧
    ∀ p, (t.port p).baud = (s.port p).baud
end

