-- ==== Sys2Proof/Laws/Codec.lean ====
section
/-! SUPPORT. Lengths of what the codec builds and takes apart, and the small lemmas of the hex code. -/

namespace Sys2Proof.Machine

@[simp] theorem length_crcWire (c : Half) : (crcWire c).length = 2 := rfl

@[simp] theorem length_crcBytes (s : List Byte) : (crcBytes s).length = 2 := rfl

@[simp] theorem length_body (a f : Byte) (d : List Byte) : (body a f d).length = d.length + 2 := rfl

@[simp] theorem length_footer : footer.length = 2 := rfl

@[simp] theorem length_hexPair (b : Byte) : (hexPair b).length = 2 := rfl

@[simp] theorem hexenc_nil : hexenc [] = [] := rfl

@[simp] theorem hexenc_cons (b : Byte) (s : List Byte) :
    hexenc (b :: s) = hexDigit (b.extractLsb' 4 4) :: hexDigit (b.extractLsb' 0 4) :: hexenc s := rfl

theorem hexenc_append (s t : List Byte) : hexenc (s ++ t) = hexenc s ++ hexenc t := by
  simp [hexenc]

@[simp] theorem length_hexenc (s : List Byte) : (hexenc s).length = 2 * s.length := by
  induction s with
  | nil => rfl
  | cons b s ih => simp only [hexenc_cons, List.length_cons, ih]; omega

/-- "Its length is len(d) + 4" (41_frame_codec R161). -/
@[simp] theorem length_rtuFrame (a f : Byte) (d : List Byte) : (rtuFrame a f d).length = d.length + 4 := by
  simp [rtuFrame]

/-- "Its length is 2·len(d) + 9" (41_frame_codec R162). -/
@[simp] theorem length_asciiFrame (a f : Byte) (d : List Byte) :
    (asciiFrame a f d).length = 2 * d.length + 9 := by
  simp [asciiFrame]; omega

theorem length_slice (s : List Byte) (a b : Nat) : (slice s a b).length = min b s.length - a := by
  simp [slice]

/-- A nibble's digit has the nibble's value. -/
@[simp] theorem hexVal_hexDigit (n : BitVec 4) : hexVal (hexDigit n) = some n := by
  revert n; decide

/-- A decoded string is half as long. -/
theorem length_of_hexdec {h d : List Byte} (e : hexdec h = some d) : h.length = 2 * d.length := by
  fun_induction hexdec h generalizing d with
  | case1 => cases e; rfl
  | case2 => cases e
  | case3 hi lo h a b c hc _ _ ih => cases e; have := ih hc; simp only [List.length_cons]; omega
  | case4 => cases e

theorem extractRtu_length {a f : Byte} {w d : List Byte} (h : extractRtu a f w = .ok d) :
    d.length + 4 = w.length := by
  unfold extractRtu at h
  split at h
  · cases h
  · split at h
    · cases h
    · split at h
      · cases h
      · cases h; simp [length_slice]; omega

theorem extractDecoded_length {a f : Byte} {b d : List Byte} (h : extractDecoded a f b = .ok d) :
    d.length ≤ b.length := by
  unfold extractDecoded at h
  split at h
  · cases h
  · split at h
    · cases h
    · cases h; simp [length_slice]; omega

theorem extractAscii_length {a f : Byte} {w d : List Byte} (h : extractAscii a f w = .ok d) :
    d.length ≤ w.length := by
  unfold extractAscii at h
  split at h
  · cases h
  · split at h
    · cases h
    · split at h
      · cases h
      · split at h
        · cases h
        · split at h
          · cases h
          · rename_i b hb
            have h1 := extractDecoded_length h
            have h2 := length_of_hexdec hb
            rw [length_slice] at h2
            omega

/-- No check of EXTRACT answers with the code for success. -/
theorem extractRtu_error_ne_ok {a f : Byte} {w : List Byte} {e : ErrCode}
    (h : extractRtu a f w = .error e) : e ≠ .ok := by
  unfold extractRtu checkHeader at h
  rintro rfl
  split at h
  · cases h
  · split at h
    · cases h
    · split at h
      · rename_i hc
        split at hc
        · cases hc; cases h
        · split at hc
          · split at hc <;> (cases hc; cases h)
          · cases hc
      · cases h

theorem extractDecoded_error_ne_ok {a f : Byte} {b : List Byte} {e : ErrCode}
    (h : extractDecoded a f b = .error e) : e ≠ .ok := by
  unfold extractDecoded checkHeader at h
  rintro rfl
  split at h
  · cases h
  · split at h
    · rename_i hc
      split at hc
      · cases hc; cases h
      · split at hc
        · split at hc <;> (cases hc; cases h)
        · cases hc
    · cases h

theorem extractAscii_error_ne_ok {a f : Byte} {w : List Byte} {e : ErrCode}
    (h : extractAscii a f w = .error e) : e ≠ .ok := by
  unfold extractAscii at h
  split at h
  · rintro rfl; cases h
  · split at h
    · rintro rfl; cases h
    · split at h
      · rintro rfl; cases h
      · split at h
        · rintro rfl; cases h
        · split at h
          · rintro rfl; cases h
          · exact extractDecoded_error_ne_ok h

end Sys2Proof.Machine
end

