-- ==== Sys2Proof/Laws/Decode.lean ====
section
/-! SUPPORT. The opcode map read field by field, and what the decoder answers: no two rows match one word, so decoding is
"the row that matches" (30_encoding R92, R93). -/

namespace Sys2Proof

/-! ### A word is its six fields (R91) -/

theorem fields_append (u : Word) :
    fieldRes1 u ++ (fieldData u ++ (fieldPort u ++ (fieldRes0 u ++ (fieldMode u ++ fieldOp u)))) = u := by
  unfold fieldRes1 fieldData fieldPort fieldRes0 fieldMode fieldOp
  rw [BitVec.extractLsb'_append_extractLsb'_eq_extractLsb' (by rfl),
    BitVec.extractLsb'_append_extractLsb'_eq_extractLsb' (by rfl),
    BitVec.extractLsb'_append_extractLsb'_eq_extractLsb' (by rfl),
    BitVec.extractLsb'_append_extractLsb'_eq_extractLsb' (by rfl),
    BitVec.extractLsb'_append_extractLsb'_eq_extractLsb' (by rfl)]
  simp

theorem word_ext_fields {w v : Word} (hop : fieldOp w = fieldOp v) (hmode : fieldMode w = fieldMode v)
    (hres0 : fieldRes0 w = fieldRes0 v) (hport : fieldPort w = fieldPort v)
    (hdata : fieldData w = fieldData v) (hres1 : fieldRes1 w = fieldRes1 v) : w = v := by
  rw [← fields_append w, ← fields_append v, hop, hmode, hres0, hport, hdata, hres1]

theorem extract_and (w m : Word) (s l : Nat) :
    (w &&& m).extractLsb' s l = w.extractLsb' s l &&& m.extractLsb' s l := by
  apply BitVec.eq_of_getLsbD_eq
  intro i hi
  simp [hi]

theorem extract_or (w m : Word) (s l : Nat) :
    (w ||| m).extractLsb' s l = w.extractLsb' s l ||| m.extractLsb' s l := by
  apply BitVec.eq_of_getLsbD_eq
  intro i hi
  simp [hi]

/-- A masked comparison, field by field. -/
theorem and_eq_iff_fields (w m v : Word) : w &&& m = v ↔
    fieldOp w &&& fieldOp m = fieldOp v ∧ fieldMode w &&& fieldMode m = fieldMode v ∧
    fieldRes0 w &&& fieldRes0 m = fieldRes0 v ∧ fieldPort w &&& fieldPort m = fieldPort v ∧
    fieldData w &&& fieldData m = fieldData v ∧ fieldRes1 w &&& fieldRes1 m = fieldRes1 v := by
  constructor
  · rintro rfl
    simp [fieldOp, fieldMode, fieldRes0, fieldPort, fieldData, fieldRes1, extract_and]
  · rintro ⟨h0, h1, h2, h3, h4, h5⟩
    refine word_ext_fields ?_ ?_ ?_ ?_ ?_ ?_ <;>
      simpa [fieldOp, fieldMode, fieldRes0, fieldPort, fieldData, fieldRes1, extract_and] using by
        assumption

/-! ### Rows -/

/-- A row matches exactly when OP and MODE are the row's and every field the row does not use is 0 (R91, R92). -/
theorem Opcode.matches_iff_fields (r : Opcode) (w : Word) : r.matches w = true ↔
    fieldOp w = fieldOp r.value ∧ fieldMode w = fieldMode r.value ∧ fieldRes0 w = 0 ∧
    (fieldPort w = 0 ∨ usesPort (fieldOp w) = true) ∧
    (fieldData w = 0 ∨ usesData (fieldOp w) = true) ∧ fieldRes1 w = 0 := by
  have and8 : ∀ x : BitVec 8, x &&& 255#8 = x := by decide
  have and4 : ∀ x : BitVec 4, x &&& 15#4 = x := by decide
  have and3 : ∀ x : BitVec 3, x &&& 7#3 = x := by decide
  have and1 : ∀ x : BitVec 1, x &&& 1#1 = x := by decide
  unfold Opcode.matches
  rw [beq_iff_eq, and_eq_iff_fields]
  unfold fieldOp fieldMode fieldRes0 fieldPort fieldData fieldRes1 usesPort usesData
  cases r <;> simp +decide [Opcode.value, Opcode.mask, and8, and4, and3, and1] <;>
    (intro h; try simp +decide [h])

/-- "No two rows match the same word" (R93): OP and MODE tell the rows apart. -/
theorem Opcode.matches_unique {r q : Opcode} {w : Word} (hr : r.matches w = true)
    (hq : q.matches w = true) : r = q := by
  have h1 := (r.matches_iff_fields w).1 hr
  have h2 := (q.matches_iff_fields w).1 hq
  have hop : fieldOp r.value = fieldOp q.value := h1.1.symm.trans h2.1
  have hmode : fieldMode r.value = fieldMode q.value := h1.2.1.symm.trans h2.2.1
  revert hop hmode
  clear hr hq h1 h2
  cases r <;> cases q <;> first | (intros; rfl) | (intro h; exact absurd h (by decide)) |
    (intro _ h; exact absurd h (by decide))

theorem mem_opcodeRows (r : Opcode) : r ∈ opcodeRows := by
  cases r <;> decide

/-- The decoder answers the command of the row that matches. -/
theorem decode_ok_iff (w : Word) (i : Instr) :
    decode w = .ok i ↔ ∃ r : Opcode, r.matches w = true ∧ r.instr w = i := by
  unfold decode
  constructor
  · intro h
    split at h
    · rename_i r hr
      exact ⟨r, by simpa using List.find?_some hr, by simpa using h⟩
    · cases h
  · rintro ⟨r, hr, rfl⟩
    split
    · rename_i q hq
      have hq' : q.matches w = true := by simpa using List.find?_some hq
      rw [Opcode.matches_unique hr hq']
    · rename_i hn
      have := List.find?_eq_none.1 hn r (mem_opcodeRows r)
      exact absurd hr this

/-- The decoder rejects exactly the words that match no row. -/
theorem decode_error_iff (w : Word) :
    decode w = .error (illegalCause w) ↔ ∀ r : Opcode, r.matches w = false := by
  unfold decode
  constructor
  · intro h r
    split at h
    · cases h
    · rename_i hn
      simpa using List.find?_eq_none.1 hn r (mem_opcodeRows r)
  · intro h
    have hn : opcodeRows.find? (fun r => r.matches w) = none :=
      List.find?_eq_none.2 (fun r _ => by simp [h r])
    simp [hn]

theorem instr_opcode (r : Opcode) (w : Word) : (r.instr w).opcode = r := by
  cases r <;> rfl

end Sys2Proof
end

