-- ==== Sys2Proof/Laws/Memory.lean ====
section
/-! SUPPORT. The buffers: what a read gives after a write, and that every operation keeps the canonical form. -/

namespace Sys2Proof.Machine

/-! ### One byte -/

theorem Memory.get_set_same (m : Memory) (a : Nat) (b : Byte) :
    Memory.get (Memory.set m a b) a = some b := by
  induction m with
  | nil => simp [Memory.set, Memory.get]
  | cons e m ih =>
    obtain ⟨k, c⟩ := e
    simp only [Memory.set]
    split
    · simp [Memory.get]
    · split
      · simp [Memory.get]
      · simp [Memory.get, *]

theorem Memory.get_set_other (m : Memory) {a x : Nat} (b : Byte) (h : x ≠ a) :
    Memory.get (Memory.set m a b) x = Memory.get m x := by
  induction m with
  | nil => simp [Memory.set, Memory.get, h]
  | cons e m ih =>
    obtain ⟨k, c⟩ := e
    simp only [Memory.set]
    split
    · simp [Memory.get, h]
    · split
      · subst_vars; simp [Memory.get, h]
      · simp [Memory.get, ih]

/-- Where a listed index comes from after one write. -/
theorem Memory.mem_set {m : Memory} {a : Nat} {b : Byte} {c : Host.Cell} (h : c ∈ Memory.set m a b) :
    c = (a, b) ∨ c ∈ m := by
  induction m with
  | nil => simpa [Memory.set] using h
  | cons e m ih =>
    obtain ⟨k, d⟩ := e
    simp only [Memory.set] at h
    split at h
    · simpa using h
    · split at h
      · rcases List.mem_cons.1 h with h | h
        · exact .inl h
        · exact .inr (List.mem_cons_of_mem _ h)
      · rcases List.mem_cons.1 h with h | h
        · exact .inr (h ▸ List.mem_cons_self)
        · rcases ih h with h | h
          · exact .inl h
          · exact .inr (List.mem_cons_of_mem _ h)

theorem Memory.canonical_set {m : Memory} (hm : Memory.Canonical m) (a : Nat) (b : Byte) :
    Memory.Canonical (Memory.set m a b) := by
  induction m with
  | nil => simp [Memory.set, Memory.Canonical]
  | cons e m ih =>
    obtain ⟨k, c⟩ := e
    obtain ⟨hk, hm'⟩ := List.pairwise_cons.1 hm
    simp only [Memory.set]
    split
    · rename_i hlt
      refine List.pairwise_cons.2 ⟨fun d hd => ?_, hm⟩
      rcases List.mem_cons.1 hd with rfl | hd
      · exact hlt
      · exact Nat.lt_trans hlt (hk d hd)
    · split
      · subst_vars
        exact List.pairwise_cons.2 ⟨hk, hm'⟩
      · refine List.pairwise_cons.2 ⟨fun d hd => ?_, ih hm'⟩
        rcases Memory.mem_set hd with rfl | hd
        · dsimp only; omega
        · exact hk d hd

theorem Memory.canonical_nil : Memory.Canonical ([] : Memory) := List.Pairwise.nil

theorem Memory.wf_iff (m : Memory) : Memory.wf m = true ↔ Memory.Canonical m := by
  simp [Memory.wf]

/-! ### Byte strings -/

theorem Memory.canonical_write {m : Memory} (hm : Memory.Canonical m) (a : Nat) (bs : List Byte) :
    Memory.Canonical (Memory.write m a bs) := by
  induction bs generalizing m a with
  | nil => exact hm
  | cons b bs ih => exact ih (Memory.canonical_set hm a b) _

/-- Every memory operation keeps the canonical form. -/
theorem Memory.wf_write {m : Memory} (hm : Memory.wf m = true) (a : Nat) (bs : List Byte) :
    Memory.wf (Memory.write m a bs) = true :=
  (Memory.wf_iff _).2 (Memory.canonical_write ((Memory.wf_iff _).1 hm) a bs)

theorem Memory.wf_reset : Memory.wf State.reset.inBuf = true ∧ Memory.wf State.reset.outBuf = true := by
  decide

theorem Memory.get_write_below (m : Memory) (a : Nat) (bs : List Byte) {x : Nat} (h : x < a) :
    Memory.get (Memory.write m a bs) x = Memory.get m x := by
  induction bs generalizing m a with
  | nil => rfl
  | cons b bs ih =>
    rw [Memory.write, ih _ _ (Nat.lt_succ_of_lt h), Memory.get_set_other _ _ (Nat.ne_of_lt h)]

/-- Reading one byte after writing a string at `a`: the string's byte inside it, the old byte elsewhere. -/
theorem Memory.get_write (m : Memory) (a : Nat) (bs : List Byte) (x : Nat) :
    Memory.get (Memory.write m a bs) x =
      if a ≤ x ∧ x < a + bs.length then bs[x - a]? else Memory.get m x := by
  induction bs generalizing m a with
  | nil => simp [Memory.write]
  | cons b bs ih =>
    rw [Memory.write, ih]
    by_cases hx : x = a
    · subst hx
      simp [Memory.get_set_same]
    · rw [Memory.get_set_other _ _ hx]
      by_cases h : a + 1 ≤ x ∧ x < a + 1 + bs.length
      · have h2 : a ≤ x ∧ x < a + (b :: bs).length := by simp; omega
        rw [if_pos h, if_pos h2, show x - a = (x - (a + 1)) + 1 by omega, List.getElem?_cons_succ]
      · have h2 : ¬ (a ≤ x ∧ x < a + (b :: bs).length) := by simp; omega
        rw [if_neg h, if_neg h2]

theorem Memory.overwritten_write (m : Memory) (bs : List Byte) :
    OverwrittenBy m (Memory.write m 0 bs) bs := by
  intro a
  simp [Memory.get_write]

@[simp] theorem Memory.length_read (m : Memory) (d a n : Nat) : (Memory.read m d a n).length = n := by
  induction n generalizing a with
  | zero => rfl
  | succ n ih => simp [Memory.read, ih]

/-- The bytes a read gives, one by one. -/
theorem Memory.getElem?_read (m : Memory) (d a n i : Nat) (h : i < n) :
    (Memory.read m d a n)[i]? = some ((Memory.get m (a + i)).getD (Config.undefinedByte d (a + i))) := by
  induction n generalizing a i with
  | zero => omega
  | succ n ih =>
    cases i with
    | zero => simp [Memory.read]
    | succ i =>
      rw [Memory.read, List.getElem?_cons_succ, ih _ _ (by omega)]
      rw [show a + 1 + i = a + (i + 1) by omega]

theorem Memory.defined_iff (m : Memory) (a n : Nat) :
    Memory.defined m a n = true ↔ ∀ i, i < n → (Memory.get m (a + i)).isSome = true := by
  induction n generalizing a with
  | zero => simp [Memory.defined]
  | succ n ih =>
    simp only [Memory.defined, Bool.and_eq_true, ih]
    constructor
    · rintro ⟨h0, h⟩ i hi
      cases i with
      | zero => simpa using h0
      | succ i => rw [show a + (i + 1) = a + 1 + i by omega]; exact h i (by omega)
    · intro h
      refine ⟨by simpa using h 0 (by omega), fun i hi => ?_⟩
      rw [show a + 1 + i = a + (i + 1) by omega]
      exact h (i + 1) (by omega)

/-- A defined string is read as it stands. -/
theorem Memory.read_of_get {m : Memory} {bs : List Byte} {a : Nat} (d : Nat)
    (h : ∀ i, i < bs.length → Memory.get m (a + i) = bs[i]?) :
    Memory.read m d a bs.length = bs := by
  apply List.ext_getElem?
  intro i
  by_cases hi : i < bs.length
  · rw [Memory.getElem?_read _ _ _ _ _ hi, h i hi, List.getElem?_eq_getElem hi]
    rfl
  · rw [List.getElem?_eq_none (by simpa using hi), List.getElem?_eq_none (by simpa using hi)]

/-! ### IN as an operand -/

theorem State.InputIs.inBytes_eq {s : State} {bs : List Byte} (h : s.InputIs bs) : s.inBytes = bs := by
  unfold State.inBytes State.inCount
  rw [h.1]
  exact Memory.read_of_get _ (fun i hi => by simpa using h.2 i hi)

theorem State.InputIs.inDefined_eq {s : State} {bs : List Byte} (h : s.InputIs bs) :
    s.inDefined = true := by
  unfold State.inDefined State.inCount
  rw [h.1, Memory.defined_iff]
  intro i hi
  rw [Nat.zero_add, h.2 i hi, List.getElem?_eq_getElem hi]
  rfl

/-- A command on a defined operand records no fault. -/
theorem State.InputIs.readIn_eq {s : State} {bs : List Byte} (h : s.InputIs bs) : s.readIn = s := by
  simp [State.readIn, State.noteRead, h.inDefined_eq]

end Sys2Proof.Machine
end

