-- ==== Sys2Proof/Laws/PerInstr.lean ====
section
/-! SUPPORT. The family of statements made once for each instruction: its encoding carries its row's match value under
its row's mask (30_encoding R92), whatever its operands. -/

namespace Sys2Proof.Laws

/-- The word of `i` matches the row of `i` in the opcode map. -/
def EncodesItsRow.Statement (i : Instr) : Prop := i.opcode.matches (encode i) = true

theorem EncodesItsRow.crcInit : EncodesItsRow.Statement .crcInit := rfl

theorem EncodesItsRow.crcFeed (data : Byte) : EncodesItsRow.Statement (.crcFeed data) := by
  revert data; unfold EncodesItsRow.Statement; decide +kernel

theorem EncodesItsRow.crcBuf : EncodesItsRow.Statement .crcBuf := rfl

theorem EncodesItsRow.lrcInit : EncodesItsRow.Statement .lrcInit := rfl

theorem EncodesItsRow.lrcFeed (data : Byte) : EncodesItsRow.Statement (.lrcFeed data) := by
  revert data; unfold EncodesItsRow.Statement; decide +kernel

theorem EncodesItsRow.lrcBuf : EncodesItsRow.Statement .lrcBuf := rfl

theorem EncodesItsRow.embedRtu : EncodesItsRow.Statement .embedRtu := rfl

theorem EncodesItsRow.embedAscii : EncodesItsRow.Statement .embedAscii := rfl

theorem EncodesItsRow.extractRtu : EncodesItsRow.Statement .extractRtu := rfl

theorem EncodesItsRow.extractAscii : EncodesItsRow.Statement .extractAscii := rfl

/-- The port field, placed at bits 15:12, meets no bit of the mask of GATE_TX and RX_DONE (one mask for both). -/
theorem placePort_outside_mask (k : BitVec 4) :
    ((k.setWidth 32 <<< 12) &&& (0xFFFF0FFF : Word)) = 0 := by
  revert k; decide +kernel

theorem EncodesItsRow.gateTx (port : Nat) : EncodesItsRow.Statement (.gateTx port) := by
  have h := placePort_outside_mask (BitVec.ofNat 4 port)
  simp only [EncodesItsRow.Statement, encode, Instr.opcode, Instr.operandBits, placePort, Opcode.matches,
    Opcode.mask, Opcode.value, BitVec.and_or_distrib_right, h]
  decide

theorem EncodesItsRow.rxDone (port : Nat) : EncodesItsRow.Statement (.rxDone port) := by
  have h := placePort_outside_mask (BitVec.ofNat 4 port)
  simp only [EncodesItsRow.Statement, encode, Instr.opcode, Instr.operandBits, placePort, Opcode.matches,
    Opcode.mask, Opcode.value, BitVec.and_or_distrib_right, h]
  decide

end Sys2Proof.Laws
end

