-- ==== Sys2Proof/Laws/State.lean ====
section
/-! SUPPORT. What each named update of State does to each field, so that no proof unfolds a record update. -/

namespace Sys2Proof.Machine

variable (s : State)

/-! ### complete -/

@[simp] theorem State.complete_params (c : ErrCode) : (s.complete c).params = s.params := rfl
@[simp] theorem State.complete_busy (c : ErrCode) : (s.complete c).busy = false := rfl
@[simp] theorem State.complete_done (c : ErrCode) : (s.complete c).done = true := rfl
@[simp] theorem State.complete_ovr (c : ErrCode) : (s.complete c).ovr = s.ovr := rfl
@[simp] theorem State.complete_err (c : ErrCode) : (s.complete c).err = c.byte := rfl
@[simp] theorem State.complete_saddr (c : ErrCode) : (s.complete c).saddr = s.saddr := rfl
@[simp] theorem State.complete_fcode (c : ErrCode) : (s.complete c).fcode = s.fcode := rfl
@[simp] theorem State.complete_len (c : ErrCode) : (s.complete c).len = s.len := rfl
@[simp] theorem State.complete_outLen (c : ErrCode) : (s.complete c).outLen = s.outLen := rfl
@[simp] theorem State.complete_crc (c : ErrCode) : (s.complete c).crc = s.crc := rfl
@[simp] theorem State.complete_lrcSum (c : ErrCode) : (s.complete c).lrcSum = s.lrcSum := rfl
@[simp] theorem State.complete_time (c : ErrCode) : (s.complete c).time = s.time := rfl
@[simp] theorem State.complete_timeHiShadow (c : ErrCode) : (s.complete c).timeHiShadow = s.timeHiShadow := rfl
@[simp] theorem State.complete_curCmd (c : ErrCode) : (s.complete c).curCmd = s.curCmd := rfl
@[simp] theorem State.complete_inBuf (c : ErrCode) : (s.complete c).inBuf = s.inBuf := rfl
@[simp] theorem State.complete_outBuf (c : ErrCode) : (s.complete c).outBuf = s.outBuf := rfl
@[simp] theorem State.complete_ports (c : ErrCode) : (s.complete c).ports = s.ports := rfl
@[simp] theorem State.complete_faults (c : ErrCode) : (s.complete c).faults = s.faults := rfl
@[simp] theorem State.complete_inReset (c : ErrCode) : (s.complete c).inReset = s.inReset := rfl
@[simp] theorem State.complete_draws (c : ErrCode) : (s.complete c).draws = s.draws := rfl
@[simp] theorem State.complete_response (c : ErrCode) : (s.complete c).response = s.response := rfl
@[simp] theorem State.complete_schedule (c : ErrCode) : (s.complete c).schedule = s.schedule := rfl

/-! ### discard -/

@[simp] theorem State.discard_params (c : ErrCode) : (s.discard c).params = s.params := rfl
@[simp] theorem State.discard_busy (c : ErrCode) : (s.discard c).busy = false := rfl
@[simp] theorem State.discard_done (c : ErrCode) : (s.discard c).done = true := rfl
@[simp] theorem State.discard_ovr (c : ErrCode) : (s.discard c).ovr = s.ovr := rfl
@[simp] theorem State.discard_err (c : ErrCode) : (s.discard c).err = c.byte := rfl
@[simp] theorem State.discard_saddr (c : ErrCode) : (s.discard c).saddr = s.saddr := rfl
@[simp] theorem State.discard_fcode (c : ErrCode) : (s.discard c).fcode = s.fcode := rfl
@[simp] theorem State.discard_len (c : ErrCode) : (s.discard c).len = s.len := rfl
@[simp] theorem State.discard_outLen (c : ErrCode) : (s.discard c).outLen = 0 := rfl
@[simp] theorem State.discard_crc (c : ErrCode) : (s.discard c).crc = s.crc := rfl
@[simp] theorem State.discard_lrcSum (c : ErrCode) : (s.discard c).lrcSum = s.lrcSum := rfl
@[simp] theorem State.discard_time (c : ErrCode) : (s.discard c).time = s.time := rfl
@[simp] theorem State.discard_timeHiShadow (c : ErrCode) : (s.discard c).timeHiShadow = s.timeHiShadow := rfl
@[simp] theorem State.discard_curCmd (c : ErrCode) : (s.discard c).curCmd = s.curCmd := rfl
@[simp] theorem State.discard_inBuf (c : ErrCode) : (s.discard c).inBuf = s.inBuf := rfl
@[simp] theorem State.discard_outBuf (c : ErrCode) : (s.discard c).outBuf = s.outBuf := rfl
@[simp] theorem State.discard_ports (c : ErrCode) : (s.discard c).ports = s.ports := rfl
@[simp] theorem State.discard_faults (c : ErrCode) : (s.discard c).faults = s.faults := rfl
@[simp] theorem State.discard_inReset (c : ErrCode) : (s.discard c).inReset = s.inReset := rfl
@[simp] theorem State.discard_draws (c : ErrCode) : (s.discard c).draws = s.draws := rfl
@[simp] theorem State.discard_response (c : ErrCode) : (s.discard c).response = s.response := rfl
@[simp] theorem State.discard_schedule (c : ErrCode) : (s.discard c).schedule = s.schedule := rfl

/-! ### accept -/

@[simp] theorem State.accept_params (w : Word) : (s.accept w).params = s.params := rfl
@[simp] theorem State.accept_busy (w : Word) : (s.accept w).busy = true := rfl
@[simp] theorem State.accept_done (w : Word) : (s.accept w).done = false := rfl
@[simp] theorem State.accept_ovr (w : Word) : (s.accept w).ovr = s.ovr := rfl
@[simp] theorem State.accept_err (w : Word) : (s.accept w).err = 0 := rfl
@[simp] theorem State.accept_saddr (w : Word) : (s.accept w).saddr = s.saddr := rfl
@[simp] theorem State.accept_fcode (w : Word) : (s.accept w).fcode = s.fcode := rfl
@[simp] theorem State.accept_len (w : Word) : (s.accept w).len = s.len := rfl
@[simp] theorem State.accept_outLen (w : Word) : (s.accept w).outLen = s.outLen := rfl
@[simp] theorem State.accept_crc (w : Word) : (s.accept w).crc = s.crc := rfl
@[simp] theorem State.accept_lrcSum (w : Word) : (s.accept w).lrcSum = s.lrcSum := rfl
@[simp] theorem State.accept_time (w : Word) : (s.accept w).time = s.time := rfl
@[simp] theorem State.accept_timeHiShadow (w : Word) : (s.accept w).timeHiShadow = s.timeHiShadow := rfl
@[simp] theorem State.accept_curCmd (w : Word) : (s.accept w).curCmd = w := rfl
@[simp] theorem State.accept_inBuf (w : Word) : (s.accept w).inBuf = s.inBuf := rfl
@[simp] theorem State.accept_outBuf (w : Word) : (s.accept w).outBuf = s.outBuf := rfl
@[simp] theorem State.accept_ports (w : Word) : (s.accept w).ports = s.ports := rfl
@[simp] theorem State.accept_faults (w : Word) : (s.accept w).faults = s.faults := rfl
@[simp] theorem State.accept_inReset (w : Word) : (s.accept w).inReset = s.inReset := rfl
@[simp] theorem State.accept_draws (w : Word) : (s.accept w).draws = s.draws := rfl
@[simp] theorem State.accept_response (w : Word) : (s.accept w).response = s.response := rfl
@[simp] theorem State.accept_schedule (w : Word) : (s.accept w).schedule = s.schedule := rfl

/-! ### putOut -/

@[simp] theorem State.putOut_params (bs : List Byte) : (s.putOut bs).params = s.params := rfl
@[simp] theorem State.putOut_busy (bs : List Byte) : (s.putOut bs).busy = s.busy := rfl
@[simp] theorem State.putOut_done (bs : List Byte) : (s.putOut bs).done = s.done := rfl
@[simp] theorem State.putOut_ovr (bs : List Byte) : (s.putOut bs).ovr = s.ovr := rfl
@[simp] theorem State.putOut_err (bs : List Byte) : (s.putOut bs).err = s.err := rfl
@[simp] theorem State.putOut_saddr (bs : List Byte) : (s.putOut bs).saddr = s.saddr := rfl
@[simp] theorem State.putOut_fcode (bs : List Byte) : (s.putOut bs).fcode = s.fcode := rfl
@[simp] theorem State.putOut_len (bs : List Byte) : (s.putOut bs).len = s.len := rfl
@[simp] theorem State.putOut_outLen (bs : List Byte) : (s.putOut bs).outLen = BitVec.ofNat 32 bs.length := rfl
@[simp] theorem State.putOut_crc (bs : List Byte) : (s.putOut bs).crc = s.crc := rfl
@[simp] theorem State.putOut_lrcSum (bs : List Byte) : (s.putOut bs).lrcSum = s.lrcSum := rfl
@[simp] theorem State.putOut_time (bs : List Byte) : (s.putOut bs).time = s.time := rfl
@[simp] theorem State.putOut_timeHiShadow (bs : List Byte) : (s.putOut bs).timeHiShadow = s.timeHiShadow := rfl
@[simp] theorem State.putOut_curCmd (bs : List Byte) : (s.putOut bs).curCmd = s.curCmd := rfl
@[simp] theorem State.putOut_inBuf (bs : List Byte) : (s.putOut bs).inBuf = s.inBuf := rfl
@[simp] theorem State.putOut_outBuf (bs : List Byte) : (s.putOut bs).outBuf = Memory.write s.outBuf 0 bs := rfl
@[simp] theorem State.putOut_ports (bs : List Byte) : (s.putOut bs).ports = s.ports := rfl
@[simp] theorem State.putOut_faults (bs : List Byte) : (s.putOut bs).faults = s.faults := rfl
@[simp] theorem State.putOut_inReset (bs : List Byte) : (s.putOut bs).inReset = s.inReset := rfl
@[simp] theorem State.putOut_draws (bs : List Byte) : (s.putOut bs).draws = s.draws := rfl
@[simp] theorem State.putOut_response (bs : List Byte) : (s.putOut bs).response = s.response := rfl
@[simp] theorem State.putOut_schedule (bs : List Byte) : (s.putOut bs).schedule = s.schedule := rfl

/-! ### setCrc -/

@[simp] theorem State.setCrc_params (c : Half) : (s.setCrc c).params = s.params := rfl
@[simp] theorem State.setCrc_busy (c : Half) : (s.setCrc c).busy = s.busy := rfl
@[simp] theorem State.setCrc_done (c : Half) : (s.setCrc c).done = s.done := rfl
@[simp] theorem State.setCrc_ovr (c : Half) : (s.setCrc c).ovr = s.ovr := rfl
@[simp] theorem State.setCrc_err (c : Half) : (s.setCrc c).err = s.err := rfl
@[simp] theorem State.setCrc_saddr (c : Half) : (s.setCrc c).saddr = s.saddr := rfl
@[simp] theorem State.setCrc_fcode (c : Half) : (s.setCrc c).fcode = s.fcode := rfl
@[simp] theorem State.setCrc_len (c : Half) : (s.setCrc c).len = s.len := rfl
@[simp] theorem State.setCrc_outLen (c : Half) : (s.setCrc c).outLen = s.outLen := rfl
@[simp] theorem State.setCrc_crc (c : Half) : (s.setCrc c).crc = c := rfl
@[simp] theorem State.setCrc_lrcSum (c : Half) : (s.setCrc c).lrcSum = s.lrcSum := rfl
@[simp] theorem State.setCrc_time (c : Half) : (s.setCrc c).time = s.time := rfl
@[simp] theorem State.setCrc_timeHiShadow (c : Half) : (s.setCrc c).timeHiShadow = s.timeHiShadow := rfl
@[simp] theorem State.setCrc_curCmd (c : Half) : (s.setCrc c).curCmd = s.curCmd := rfl
@[simp] theorem State.setCrc_inBuf (c : Half) : (s.setCrc c).inBuf = s.inBuf := rfl
@[simp] theorem State.setCrc_outBuf (c : Half) : (s.setCrc c).outBuf = s.outBuf := rfl
@[simp] theorem State.setCrc_ports (c : Half) : (s.setCrc c).ports = s.ports := rfl
@[simp] theorem State.setCrc_faults (c : Half) : (s.setCrc c).faults = s.faults := rfl
@[simp] theorem State.setCrc_inReset (c : Half) : (s.setCrc c).inReset = s.inReset := rfl
@[simp] theorem State.setCrc_draws (c : Half) : (s.setCrc c).draws = s.draws := rfl
@[simp] theorem State.setCrc_response (c : Half) : (s.setCrc c).response = s.response := rfl
@[simp] theorem State.setCrc_schedule (c : Half) : (s.setCrc c).schedule = s.schedule := rfl

/-! ### setLrcSum -/

@[simp] theorem State.setLrcSum_params (b : Byte) : (s.setLrcSum b).params = s.params := rfl
@[simp] theorem State.setLrcSum_busy (b : Byte) : (s.setLrcSum b).busy = s.busy := rfl
@[simp] theorem State.setLrcSum_done (b : Byte) : (s.setLrcSum b).done = s.done := rfl
@[simp] theorem State.setLrcSum_ovr (b : Byte) : (s.setLrcSum b).ovr = s.ovr := rfl
@[simp] theorem State.setLrcSum_err (b : Byte) : (s.setLrcSum b).err = s.err := rfl
@[simp] theorem State.setLrcSum_saddr (b : Byte) : (s.setLrcSum b).saddr = s.saddr := rfl
@[simp] theorem State.setLrcSum_fcode (b : Byte) : (s.setLrcSum b).fcode = s.fcode := rfl
@[simp] theorem State.setLrcSum_len (b : Byte) : (s.setLrcSum b).len = s.len := rfl
@[simp] theorem State.setLrcSum_outLen (b : Byte) : (s.setLrcSum b).outLen = s.outLen := rfl
@[simp] theorem State.setLrcSum_crc (b : Byte) : (s.setLrcSum b).crc = s.crc := rfl
@[simp] theorem State.setLrcSum_lrcSum (b : Byte) : (s.setLrcSum b).lrcSum = b := rfl
@[simp] theorem State.setLrcSum_time (b : Byte) : (s.setLrcSum b).time = s.time := rfl
@[simp] theorem State.setLrcSum_timeHiShadow (b : Byte) : (s.setLrcSum b).timeHiShadow = s.timeHiShadow := rfl
@[simp] theorem State.setLrcSum_curCmd (b : Byte) : (s.setLrcSum b).curCmd = s.curCmd := rfl
@[simp] theorem State.setLrcSum_inBuf (b : Byte) : (s.setLrcSum b).inBuf = s.inBuf := rfl
@[simp] theorem State.setLrcSum_outBuf (b : Byte) : (s.setLrcSum b).outBuf = s.outBuf := rfl
@[simp] theorem State.setLrcSum_ports (b : Byte) : (s.setLrcSum b).ports = s.ports := rfl
@[simp] theorem State.setLrcSum_faults (b : Byte) : (s.setLrcSum b).faults = s.faults := rfl
@[simp] theorem State.setLrcSum_inReset (b : Byte) : (s.setLrcSum b).inReset = s.inReset := rfl
@[simp] theorem State.setLrcSum_draws (b : Byte) : (s.setLrcSum b).draws = s.draws := rfl
@[simp] theorem State.setLrcSum_response (b : Byte) : (s.setLrcSum b).response = s.response := rfl
@[simp] theorem State.setLrcSum_schedule (b : Byte) : (s.setLrcSum b).schedule = s.schedule := rfl

/-! ### setPort -/

@[simp] theorem State.setPort_params (p : Nat) (q : Port) : (s.setPort p q).params = s.params := rfl
@[simp] theorem State.setPort_busy (p : Nat) (q : Port) : (s.setPort p q).busy = s.busy := rfl
@[simp] theorem State.setPort_done (p : Nat) (q : Port) : (s.setPort p q).done = s.done := rfl
@[simp] theorem State.setPort_ovr (p : Nat) (q : Port) : (s.setPort p q).ovr = s.ovr := rfl
@[simp] theorem State.setPort_err (p : Nat) (q : Port) : (s.setPort p q).err = s.err := rfl
@[simp] theorem State.setPort_saddr (p : Nat) (q : Port) : (s.setPort p q).saddr = s.saddr := rfl
@[simp] theorem State.setPort_fcode (p : Nat) (q : Port) : (s.setPort p q).fcode = s.fcode := rfl
@[simp] theorem State.setPort_len (p : Nat) (q : Port) : (s.setPort p q).len = s.len := rfl
@[simp] theorem State.setPort_outLen (p : Nat) (q : Port) : (s.setPort p q).outLen = s.outLen := rfl
@[simp] theorem State.setPort_crc (p : Nat) (q : Port) : (s.setPort p q).crc = s.crc := rfl
@[simp] theorem State.setPort_lrcSum (p : Nat) (q : Port) : (s.setPort p q).lrcSum = s.lrcSum := rfl
@[simp] theorem State.setPort_time (p : Nat) (q : Port) : (s.setPort p q).time = s.time := rfl
@[simp] theorem State.setPort_timeHiShadow (p : Nat) (q : Port) : (s.setPort p q).timeHiShadow = s.timeHiShadow := rfl
@[simp] theorem State.setPort_curCmd (p : Nat) (q : Port) : (s.setPort p q).curCmd = s.curCmd := rfl
@[simp] theorem State.setPort_inBuf (p : Nat) (q : Port) : (s.setPort p q).inBuf = s.inBuf := rfl
@[simp] theorem State.setPort_outBuf (p : Nat) (q : Port) : (s.setPort p q).outBuf = s.outBuf := rfl
@[simp] theorem State.setPort_ports (p : Nat) (q : Port) : (s.setPort p q).ports = s.ports.set p q := rfl
@[simp] theorem State.setPort_faults (p : Nat) (q : Port) : (s.setPort p q).faults = s.faults := rfl
@[simp] theorem State.setPort_inReset (p : Nat) (q : Port) : (s.setPort p q).inReset = s.inReset := rfl
@[simp] theorem State.setPort_draws (p : Nat) (q : Port) : (s.setPort p q).draws = s.draws := rfl
@[simp] theorem State.setPort_response (p : Nat) (q : Port) : (s.setPort p q).response = s.response := rfl
@[simp] theorem State.setPort_schedule (p : Nat) (q : Port) : (s.setPort p q).schedule = s.schedule := rfl

/-! ### recordFault -/

@[simp] theorem State.recordFault_params (f : ModelFault) : (s.recordFault f).params = s.params := rfl
@[simp] theorem State.recordFault_busy (f : ModelFault) : (s.recordFault f).busy = s.busy := rfl
@[simp] theorem State.recordFault_done (f : ModelFault) : (s.recordFault f).done = s.done := rfl
@[simp] theorem State.recordFault_ovr (f : ModelFault) : (s.recordFault f).ovr = s.ovr := rfl
@[simp] theorem State.recordFault_err (f : ModelFault) : (s.recordFault f).err = s.err := rfl
@[simp] theorem State.recordFault_saddr (f : ModelFault) : (s.recordFault f).saddr = s.saddr := rfl
@[simp] theorem State.recordFault_fcode (f : ModelFault) : (s.recordFault f).fcode = s.fcode := rfl
@[simp] theorem State.recordFault_len (f : ModelFault) : (s.recordFault f).len = s.len := rfl
@[simp] theorem State.recordFault_outLen (f : ModelFault) : (s.recordFault f).outLen = s.outLen := rfl
@[simp] theorem State.recordFault_crc (f : ModelFault) : (s.recordFault f).crc = s.crc := rfl
@[simp] theorem State.recordFault_lrcSum (f : ModelFault) : (s.recordFault f).lrcSum = s.lrcSum := rfl
@[simp] theorem State.recordFault_time (f : ModelFault) : (s.recordFault f).time = s.time := rfl
@[simp] theorem State.recordFault_timeHiShadow (f : ModelFault) : (s.recordFault f).timeHiShadow = s.timeHiShadow := rfl
@[simp] theorem State.recordFault_curCmd (f : ModelFault) : (s.recordFault f).curCmd = s.curCmd := rfl
@[simp] theorem State.recordFault_inBuf (f : ModelFault) : (s.recordFault f).inBuf = s.inBuf := rfl
@[simp] theorem State.recordFault_outBuf (f : ModelFault) : (s.recordFault f).outBuf = s.outBuf := rfl
@[simp] theorem State.recordFault_ports (f : ModelFault) : (s.recordFault f).ports = s.ports := rfl
@[simp] theorem State.recordFault_faults (f : ModelFault) : (s.recordFault f).faults = s.faults.add f := rfl
@[simp] theorem State.recordFault_inReset (f : ModelFault) : (s.recordFault f).inReset = s.inReset := rfl
@[simp] theorem State.recordFault_draws (f : ModelFault) : (s.recordFault f).draws = s.draws := rfl
@[simp] theorem State.recordFault_response (f : ModelFault) : (s.recordFault f).response = s.response := rfl
@[simp] theorem State.recordFault_schedule (f : ModelFault) : (s.recordFault f).schedule = s.schedule := rfl

/-! ### noteRead -/

@[simp] theorem State.noteRead_params (b : Bool) : (s.noteRead b).params = s.params := by cases b <;> rfl
@[simp] theorem State.noteRead_busy (b : Bool) : (s.noteRead b).busy = s.busy := by cases b <;> rfl
@[simp] theorem State.noteRead_done (b : Bool) : (s.noteRead b).done = s.done := by cases b <;> rfl
@[simp] theorem State.noteRead_ovr (b : Bool) : (s.noteRead b).ovr = s.ovr := by cases b <;> rfl
@[simp] theorem State.noteRead_err (b : Bool) : (s.noteRead b).err = s.err := by cases b <;> rfl
@[simp] theorem State.noteRead_saddr (b : Bool) : (s.noteRead b).saddr = s.saddr := by cases b <;> rfl
@[simp] theorem State.noteRead_fcode (b : Bool) : (s.noteRead b).fcode = s.fcode := by cases b <;> rfl
@[simp] theorem State.noteRead_len (b : Bool) : (s.noteRead b).len = s.len := by cases b <;> rfl
@[simp] theorem State.noteRead_outLen (b : Bool) : (s.noteRead b).outLen = s.outLen := by cases b <;> rfl
@[simp] theorem State.noteRead_crc (b : Bool) : (s.noteRead b).crc = s.crc := by cases b <;> rfl
@[simp] theorem State.noteRead_lrcSum (b : Bool) : (s.noteRead b).lrcSum = s.lrcSum := by cases b <;> rfl
@[simp] theorem State.noteRead_time (b : Bool) : (s.noteRead b).time = s.time := by cases b <;> rfl
@[simp] theorem State.noteRead_timeHiShadow (b : Bool) : (s.noteRead b).timeHiShadow = s.timeHiShadow := by cases b <;> rfl
@[simp] theorem State.noteRead_curCmd (b : Bool) : (s.noteRead b).curCmd = s.curCmd := by cases b <;> rfl
@[simp] theorem State.noteRead_inBuf (b : Bool) : (s.noteRead b).inBuf = s.inBuf := by cases b <;> rfl
@[simp] theorem State.noteRead_outBuf (b : Bool) : (s.noteRead b).outBuf = s.outBuf := by cases b <;> rfl
@[simp] theorem State.noteRead_ports (b : Bool) : (s.noteRead b).ports = s.ports := by cases b <;> rfl
@[simp] theorem State.noteRead_faults (b : Bool) : (s.noteRead b).faults = if b then s.faults else s.faults.add .undefRead := by cases b <;> rfl
@[simp] theorem State.noteRead_inReset (b : Bool) : (s.noteRead b).inReset = s.inReset := by cases b <;> rfl
@[simp] theorem State.noteRead_draws (b : Bool) : (s.noteRead b).draws = if b then s.draws else s.draws + 1 := by cases b <;> rfl
@[simp] theorem State.noteRead_response (b : Bool) : (s.noteRead b).response = s.response := by cases b <;> rfl
@[simp] theorem State.noteRead_schedule (b : Bool) : (s.noteRead b).schedule = s.schedule := by cases b <;> rfl

/-! ### readIn -/

@[simp] theorem State.readIn_params : (s.readIn).params = s.params := by unfold State.readIn; cases s.inDefined <;> rfl
@[simp] theorem State.readIn_busy : (s.readIn).busy = s.busy := by unfold State.readIn; cases s.inDefined <;> rfl
@[simp] theorem State.readIn_done : (s.readIn).done = s.done := by unfold State.readIn; cases s.inDefined <;> rfl
@[simp] theorem State.readIn_ovr : (s.readIn).ovr = s.ovr := by unfold State.readIn; cases s.inDefined <;> rfl
@[simp] theorem State.readIn_err : (s.readIn).err = s.err := by unfold State.readIn; cases s.inDefined <;> rfl
@[simp] theorem State.readIn_saddr : (s.readIn).saddr = s.saddr := by unfold State.readIn; cases s.inDefined <;> rfl
@[simp] theorem State.readIn_fcode : (s.readIn).fcode = s.fcode := by unfold State.readIn; cases s.inDefined <;> rfl
@[simp] theorem State.readIn_len : (s.readIn).len = s.len := by unfold State.readIn; cases s.inDefined <;> rfl
@[simp] theorem State.readIn_outLen : (s.readIn).outLen = s.outLen := by unfold State.readIn; cases s.inDefined <;> rfl
@[simp] theorem State.readIn_crc : (s.readIn).crc = s.crc := by unfold State.readIn; cases s.inDefined <;> rfl
@[simp] theorem State.readIn_lrcSum : (s.readIn).lrcSum = s.lrcSum := by unfold State.readIn; cases s.inDefined <;> rfl
@[simp] theorem State.readIn_time : (s.readIn).time = s.time := by unfold State.readIn; cases s.inDefined <;> rfl
@[simp] theorem State.readIn_timeHiShadow : (s.readIn).timeHiShadow = s.timeHiShadow := by unfold State.readIn; cases s.inDefined <;> rfl
@[simp] theorem State.readIn_curCmd : (s.readIn).curCmd = s.curCmd := by unfold State.readIn; cases s.inDefined <;> rfl
@[simp] theorem State.readIn_inBuf : (s.readIn).inBuf = s.inBuf := by unfold State.readIn; cases s.inDefined <;> rfl
@[simp] theorem State.readIn_outBuf : (s.readIn).outBuf = s.outBuf := by unfold State.readIn; cases s.inDefined <;> rfl
@[simp] theorem State.readIn_ports : (s.readIn).ports = s.ports := by unfold State.readIn; cases s.inDefined <;> rfl
@[simp] theorem State.readIn_faults : (s.readIn).faults = if s.inDefined then s.faults else s.faults.add .undefRead := by unfold State.readIn; cases s.inDefined <;> rfl
@[simp] theorem State.readIn_inReset : (s.readIn).inReset = s.inReset := by unfold State.readIn; cases s.inDefined <;> rfl
@[simp] theorem State.readIn_draws : (s.readIn).draws = if s.inDefined then s.draws else s.draws + 1 := by unfold State.readIn; cases s.inDefined <;> rfl
@[simp] theorem State.readIn_response : (s.readIn).response = s.response := by unfold State.readIn; cases s.inDefined <;> rfl
@[simp] theorem State.readIn_schedule : (s.readIn).schedule = s.schedule := by unfold State.readIn; cases s.inDefined <;> rfl

/-! ### tick -/

@[simp] theorem State.tick_params : (s.tick).params = s.params := rfl
@[simp] theorem State.tick_busy : (s.tick).busy = s.busy := rfl
@[simp] theorem State.tick_done : (s.tick).done = s.done := rfl
@[simp] theorem State.tick_ovr : (s.tick).ovr = s.ovr := rfl
@[simp] theorem State.tick_err : (s.tick).err = s.err := rfl
@[simp] theorem State.tick_saddr : (s.tick).saddr = s.saddr := rfl
@[simp] theorem State.tick_fcode : (s.tick).fcode = s.fcode := rfl
@[simp] theorem State.tick_len : (s.tick).len = s.len := rfl
@[simp] theorem State.tick_outLen : (s.tick).outLen = s.outLen := rfl
@[simp] theorem State.tick_crc : (s.tick).crc = s.crc := rfl
@[simp] theorem State.tick_lrcSum : (s.tick).lrcSum = s.lrcSum := rfl
@[simp] theorem State.tick_time : (s.tick).time = s.time + 1 := rfl
@[simp] theorem State.tick_timeHiShadow : (s.tick).timeHiShadow = s.timeHiShadow := rfl
@[simp] theorem State.tick_curCmd : (s.tick).curCmd = s.curCmd := rfl
@[simp] theorem State.tick_inBuf : (s.tick).inBuf = s.inBuf := rfl
@[simp] theorem State.tick_outBuf : (s.tick).outBuf = s.outBuf := rfl
@[simp] theorem State.tick_ports : (s.tick).ports = s.ports := rfl
@[simp] theorem State.tick_faults : (s.tick).faults = s.faults := rfl
@[simp] theorem State.tick_inReset : (s.tick).inReset = s.inReset := rfl
@[simp] theorem State.tick_draws : (s.tick).draws = s.draws := rfl
@[simp] theorem State.tick_response : (s.tick).response = s.response := rfl
@[simp] theorem State.tick_schedule : (s.tick).schedule = s.schedule := rfl

/-! ### respond -/

@[simp] theorem State.respond_params (r : Response) : (s.respond r).params = s.params := rfl
@[simp] theorem State.respond_busy (r : Response) : (s.respond r).busy = s.busy := rfl
@[simp] theorem State.respond_done (r : Response) : (s.respond r).done = s.done := rfl
@[simp] theorem State.respond_ovr (r : Response) : (s.respond r).ovr = s.ovr := rfl
@[simp] theorem State.respond_err (r : Response) : (s.respond r).err = s.err := rfl
@[simp] theorem State.respond_saddr (r : Response) : (s.respond r).saddr = s.saddr := rfl
@[simp] theorem State.respond_fcode (r : Response) : (s.respond r).fcode = s.fcode := rfl
@[simp] theorem State.respond_len (r : Response) : (s.respond r).len = s.len := rfl
@[simp] theorem State.respond_outLen (r : Response) : (s.respond r).outLen = s.outLen := rfl
@[simp] theorem State.respond_crc (r : Response) : (s.respond r).crc = s.crc := rfl
@[simp] theorem State.respond_lrcSum (r : Response) : (s.respond r).lrcSum = s.lrcSum := rfl
@[simp] theorem State.respond_time (r : Response) : (s.respond r).time = s.time := rfl
@[simp] theorem State.respond_timeHiShadow (r : Response) : (s.respond r).timeHiShadow = s.timeHiShadow := rfl
@[simp] theorem State.respond_curCmd (r : Response) : (s.respond r).curCmd = s.curCmd := rfl
@[simp] theorem State.respond_inBuf (r : Response) : (s.respond r).inBuf = s.inBuf := rfl
@[simp] theorem State.respond_outBuf (r : Response) : (s.respond r).outBuf = s.outBuf := rfl
@[simp] theorem State.respond_ports (r : Response) : (s.respond r).ports = s.ports := rfl
@[simp] theorem State.respond_faults (r : Response) : (s.respond r).faults = s.faults := rfl
@[simp] theorem State.respond_inReset (r : Response) : (s.respond r).inReset = s.inReset := rfl
@[simp] theorem State.respond_draws (r : Response) : (s.respond r).draws = s.draws := rfl
@[simp] theorem State.respond_response (r : Response) : (s.respond r).response = r := rfl
@[simp] theorem State.respond_schedule (r : Response) : (s.respond r).schedule = s.schedule := rfl

/-! ### answerDraw -/

@[simp] theorem State.answerDraw_params : (s.answerDraw).params = s.params := rfl
@[simp] theorem State.answerDraw_busy : (s.answerDraw).busy = s.busy := rfl
@[simp] theorem State.answerDraw_done : (s.answerDraw).done = s.done := rfl
@[simp] theorem State.answerDraw_ovr : (s.answerDraw).ovr = s.ovr := rfl
@[simp] theorem State.answerDraw_err : (s.answerDraw).err = s.err := rfl
@[simp] theorem State.answerDraw_saddr : (s.answerDraw).saddr = s.saddr := rfl
@[simp] theorem State.answerDraw_fcode : (s.answerDraw).fcode = s.fcode := rfl
@[simp] theorem State.answerDraw_len : (s.answerDraw).len = s.len := rfl
@[simp] theorem State.answerDraw_outLen : (s.answerDraw).outLen = s.outLen := rfl
@[simp] theorem State.answerDraw_crc : (s.answerDraw).crc = s.crc := rfl
@[simp] theorem State.answerDraw_lrcSum : (s.answerDraw).lrcSum = s.lrcSum := rfl
@[simp] theorem State.answerDraw_time : (s.answerDraw).time = s.time := rfl
@[simp] theorem State.answerDraw_timeHiShadow : (s.answerDraw).timeHiShadow = s.timeHiShadow := rfl
@[simp] theorem State.answerDraw_curCmd : (s.answerDraw).curCmd = s.curCmd := rfl
@[simp] theorem State.answerDraw_inBuf : (s.answerDraw).inBuf = s.inBuf := rfl
@[simp] theorem State.answerDraw_outBuf : (s.answerDraw).outBuf = s.outBuf := rfl
@[simp] theorem State.answerDraw_ports : (s.answerDraw).ports = s.ports := rfl
@[simp] theorem State.answerDraw_faults : (s.answerDraw).faults = s.faults := rfl
@[simp] theorem State.answerDraw_inReset : (s.answerDraw).inReset = s.inReset := rfl
@[simp] theorem State.answerDraw_draws : (s.answerDraw).draws = s.draws + 1 := rfl
@[simp] theorem State.answerDraw_response : (s.answerDraw).response = .data (Config.busyDraw s.draws) := rfl
@[simp] theorem State.answerDraw_schedule : (s.answerDraw).schedule = s.schedule := rfl

/-! ### writeStatus -/

@[simp] theorem State.writeStatus_params (v : Word) : (s.writeStatus v).params = s.params := rfl
@[simp] theorem State.writeStatus_busy (v : Word) : (s.writeStatus v).busy = s.busy := rfl
@[simp] theorem State.writeStatus_done (v : Word) : (s.writeStatus v).done = s.done := rfl
@[simp] theorem State.writeStatus_ovr (v : Word) : (s.writeStatus v).ovr = (s.ovr && !v.getLsbD 2) := rfl
@[simp] theorem State.writeStatus_err (v : Word) : (s.writeStatus v).err = s.err := rfl
@[simp] theorem State.writeStatus_saddr (v : Word) : (s.writeStatus v).saddr = s.saddr := rfl
@[simp] theorem State.writeStatus_fcode (v : Word) : (s.writeStatus v).fcode = s.fcode := rfl
@[simp] theorem State.writeStatus_len (v : Word) : (s.writeStatus v).len = s.len := rfl
@[simp] theorem State.writeStatus_outLen (v : Word) : (s.writeStatus v).outLen = s.outLen := rfl
@[simp] theorem State.writeStatus_crc (v : Word) : (s.writeStatus v).crc = s.crc := rfl
@[simp] theorem State.writeStatus_lrcSum (v : Word) : (s.writeStatus v).lrcSum = s.lrcSum := rfl
@[simp] theorem State.writeStatus_time (v : Word) : (s.writeStatus v).time = s.time := rfl
@[simp] theorem State.writeStatus_timeHiShadow (v : Word) : (s.writeStatus v).timeHiShadow = s.timeHiShadow := rfl
@[simp] theorem State.writeStatus_curCmd (v : Word) : (s.writeStatus v).curCmd = s.curCmd := rfl
@[simp] theorem State.writeStatus_inBuf (v : Word) : (s.writeStatus v).inBuf = s.inBuf := rfl
@[simp] theorem State.writeStatus_outBuf (v : Word) : (s.writeStatus v).outBuf = s.outBuf := rfl
@[simp] theorem State.writeStatus_ports (v : Word) : (s.writeStatus v).ports = s.ports := rfl
@[simp] theorem State.writeStatus_faults (v : Word) : (s.writeStatus v).faults = s.faults := rfl
@[simp] theorem State.writeStatus_inReset (v : Word) : (s.writeStatus v).inReset = s.inReset := rfl
@[simp] theorem State.writeStatus_draws (v : Word) : (s.writeStatus v).draws = s.draws := rfl
@[simp] theorem State.writeStatus_response (v : Word) : (s.writeStatus v).response = s.response := rfl
@[simp] theorem State.writeStatus_schedule (v : Word) : (s.writeStatus v).schedule = s.schedule := rfl

/-! ### Derived updates and views, in terms of the named ones -/

@[simp] theorem State.answer_eq (v : Word) : s.answer v = s.respond (.data v) := rfl
@[simp] theorem State.grant_eq (p : Nat) :
    s.grant p = s.setPort p { s.port p with inflight := true } := rfl
@[simp] theorem State.refuseAccess_eq :
    s.refuseAccess = (s.recordFault .busError).respond .busError := rfl
@[simp] theorem State.noteRead_true : s.noteRead true = s := rfl
theorem State.readIn_of_defined (h : s.inDefined = true) : s.readIn = s := by
  simp [State.readIn, h]

/-! ### FAULTS -/

@[simp] theorem FaultSet.has_add_same (x : FaultSet) (f : ModelFault) : (x.add f).has f = true := by
  cases f <;> rfl

theorem FaultSet.has_add_mono (x : FaultSet) (f g : ModelFault) (h : x.has f = true) :
    (x.add g).has f = true := by
  cases f <;> cases g <;> first | exact h | rfl

theorem FaultSet.has_add_other (x : FaultSet) (f g : ModelFault) (h : f ≠ g) :
    (x.add g).has f = x.has f := by
  cases f <;> cases g <;> first | rfl | exact absurd rfl h

/-! ### Ports -/

theorem State.port_of_getElem {p : Nat} {q : Port} (h : s.ports[p]? = some q) : s.port p = q := by
  simp [State.port, List.getD_eq_getElem?_getD, h]

theorem State.port_congr {t : State} (h : t.ports = s.ports) (p : Nat) : t.port p = s.port p := by
  simp [State.port, h]

theorem State.port_setPort_other {p r : Nat} (q : Port) (h : p ≠ r) :
    (s.setPort p q).port r = s.port r := by
  simp [State.port, List.getD_eq_getElem?_getD, List.getElem?_set_ne h]

theorem State.port_setPort_same {p : Nat} (q : Port) (h : p < s.ports.length) :
    (s.setPort p q).port p = q := by
  simp [State.port, List.getD_eq_getElem?_getD, List.getElem?_set_self h]

theorem State.port_setPort_absent {p : Nat} (q : Port) (h : s.ports.length ≤ p) :
    s.setPort p q = s := by
  simp [State.setPort, List.set_eq_of_length_le h]

end Sys2Proof.Machine
end

