-- ==== Sys2Proof/Laws/Step.lean ====
section
/-! SUPPORT. What one step, one event and one command can do, said once. -/

namespace Sys2Proof.Machine

variable {s t : State}

/-! ### Steps and events -/

/-- A step takes the event that comes next. -/
theorem step_sees (s : State) (e : Event) : step (s.sees e) = State.handle e s := rfl

theorem step_idle (h : s.schedule = []) : step s = s.handle s.idleEvent := by
  simp [step, h]

/-- Any step is one event on the state less that event. -/
theorem step_is_event (s : State) : ∃ (u : State) (e : Event), step s = State.handle e u ∧
    ∃ es, u = { s with schedule := es } := by
  unfold step
  cases h : s.schedule with
  | nil => exact ⟨s, s.idleEvent, rfl, s.schedule, rfl⟩
  | cons e es => exact ⟨_, e, rfl, es, rfl⟩

theorem handle_engine (h : s.Pending) {i : Instr} (hd : decode s.curCmd = .ok i) :
    State.handle .engine s = exec i s := by
  simp [State.handle, State.engineStep, h.1, h.2, hd]

theorem handle_engine_illegal (h : s.Pending) {x : IllegalWord} (hd : decode s.curCmd = .error x) :
    State.handle .engine s = .next (s.complete .illegalCmd) := by
  simp [State.handle, State.engineStep, h.1, h.2, hd]

theorem inWindow_busAddr (s : State) {off : Nat} (h : off < 0x3000) :
    s.inWindow (s.busAddr off) = true := by
  simp [State.inWindow, State.busAddr, h]

theorem select_busAddr (s : State) (off width : Nat) :
    s.select (s.busAddr off) width = if width = 4 ∧ off % 4 = 0 then regAt s.params off else none := by
  simp [State.select, State.busAddr]

/-- A read in the window reaches the register the map gives. -/
theorem handle_read (h : s.inReset = false) {off : Nat} {r : Reg} (ho : off < 0x3000) (h4 : off % 4 = 0)
    (hr : regAt s.params off = some r) :
    State.handle (.hostRead (s.busAddr off) 4) s = .next (s.readReg r) := by
  simp [State.handle, h, hostRead, inWindow_busAddr s ho, select_busAddr, h4, hr]

/-- A write in the window reaches the register the map gives. -/
theorem handle_write (h : s.inReset = false) {off : Nat} {r : Reg} {v : Word} (ho : off < 0x3000)
    (h4 : off % 4 = 0) (hr : regAt s.params off = some r) :
    State.handle (.hostWrite (s.busAddr off) 4 v) s = .next ((s.writeReg r v).respond .written) := by
  simp [State.handle, h, hostWrite, inWindow_busAddr s ho, select_busAddr, h4, hr]

/-- What one event can do when it answers a next state. -/
inductive EventEffect (s : State) : Event → State → Prop where
  /-- Reset is asserted and the event has no effect. -/
  | held {e : Event} (h : s.inReset = true) (ha : e.isAccess = false) (hr : e ≠ .resetRelease) :
      EventEffect s e s
  /-- Reset is asserted and the access is not taken. -/
  | notTaken {e : Event} (h : s.inReset = true) (ha : e.isAccess = true) :
      EventEffect s e (s.respond .notTaken)
  | read {addr width : Nat} {r : Reg} (h : s.inReset = false) (hw : s.inWindow addr = true)
      (hr : s.select addr width = some r) : EventEffect s (.hostRead addr width) (s.readReg r)
  | write {addr width : Nat} {v : Word} {r : Reg} (h : s.inReset = false) (hw : s.inWindow addr = true)
      (hr : s.select addr width = some r) :
      EventEffect s (.hostWrite addr width v) ((s.writeReg r v).respond .written)
  | busError {e : Event} (h : s.inReset = false) (ha : e.isAccess = true) :
      EventEffect s e ((s.recordFault .busError).respond .busError)
  | command {i : Instr} {t : State} (h : s.Pending) (hd : decode s.curCmd = .ok i)
      (hx : exec i s = .next t) : EventEffect s .engine t
  | illegal {x : IllegalWord} (h : s.Pending) (hd : decode s.curCmd = .error x) :
      EventEffect s .engine (s.complete .illegalCmd)
  | noCommand (h : s.Idle) : EventEffect s .engine s
  | tick (h : s.inReset = false) : EventEffect s .tick s.tick
  | assert : EventEffect s .resetAssert { s with inReset := true }
  | released (h : s.inReset = true) : EventEffect s .resetRelease s.released
  | notAsserted (h : s.inReset = false) : EventEffect s .resetRelease s

theorem handle_effect {e : Event} (h : State.handle e s = .next t) : EventEffect s e t := by
  unfold State.handle at h
  cases e with
  | hostRead addr width =>
    simp only at h
    split at h
    · cases h; exact .notTaken ‹_› rfl
    · unfold hostRead at h
      split at h
      · split at h
        · cases h; exact .read (Bool.eq_false_of_not_eq_true ‹_›) ‹_› ‹_›
        · cases h; exact .busError (Bool.eq_false_of_not_eq_true ‹_›) rfl
      · cases h
  | hostWrite addr width v =>
    simp only at h
    split at h
    · cases h; exact .notTaken ‹_› rfl
    · unfold hostWrite at h
      split at h
      · split at h
        · cases h; exact .write (Bool.eq_false_of_not_eq_true ‹_›) ‹_› ‹_›
        · cases h; exact .busError (Bool.eq_false_of_not_eq_true ‹_›) rfl
      · cases h
  | engine =>
    simp only at h
    split at h
    · cases h; exact .held ‹_› rfl (by simp)
    · rename_i hr
      have hr : s.inReset = false := by simpa using hr
      unfold State.engineStep at h
      split at h
      · rename_i hb
        split at h
        · exact .command ⟨hr, hb⟩ ‹_› h
        · cases h; exact .illegal ⟨hr, hb⟩ ‹_›
      · rename_i hb
        cases h; exact .noCommand ⟨hr, by simpa using hb⟩
  | tick =>
    simp only at h
    split at h
    · cases h; exact .held ‹_› rfl (by simp)
    · cases h; exact .tick (Bool.eq_false_of_not_eq_true ‹_›)
  | resetAssert => cases h; exact .assert
  | resetRelease =>
    simp only at h
    split at h
    · cases h; exact .released ‹_›
    · cases h; exact .notAsserted (Bool.eq_false_of_not_eq_true ‹_›)

/-! ### Commands -/

theorem checkArgs_ne_ok {e : ErrCode} (h : s.checkArgs = some e) : e ≠ .ok := by
  unfold State.checkArgs at h
  rintro rfl
  split at h
  · cases h
  · split at h
    · cases h
    · split at h <;> cases h

theorem checkArgs_lenOk (h : s.checkArgs = none) : s.inCount ≤ s.params.bufBytes := by
  unfold State.checkArgs at h
  split at h
  · cases h
  · split at h
    · cases h
    · split at h
      · cases h
      · rename_i hl
        simpa [State.lenTooLong] using hl

theorem State.ArgsValid.checkArgs_eq (h : s.ArgsValid) : s.checkArgs = none := by
  obtain ⟨h1, h2, h3, h4⟩ := h
  have a : ¬ 247 < s.saddr.toNat := by omega
  have b : ¬ (s.fcode.toNat < 1 ∨ 127 < s.fcode.toNat) := by omega
  have c : ¬ s.params.bufBytes < s.len.toNat := by omega
  rw [State.checkArgs, if_neg a, if_neg b, if_neg (by rw [State.lenTooLong, State.inCount, decide_eq_true_eq]; exact c)]

@[simp] theorem length_inBytes (s : State) : s.inBytes.length = s.inCount := by
  simp [State.inBytes]

/-- What one command can do when its engine step answers a next state. -/
inductive CommandEffect (s : State) : Instr → State → Prop where
  /-- A GATE_TX in its hold. -/
  | hold {p : Nat} (hp : s.noSuchPort p = false) (hb : (s.port p).baud ≠ 0) (hh : s.holding p = true) :
      CommandEffect s (.gateTx p) s
  /-- A command that does not write OUT fails. -/
  | fail {i : Instr} {c : ErrCode} (hi : writesOut i = false) (hc : c ≠ .ok) :
      CommandEffect s i (s.complete c)
  /-- A buffer command fails before it reads IN. -/
  | failArgs {i : Instr} {c : ErrCode} (hi : writesOut i = true) (hc : c ≠ .ok) :
      CommandEffect s i (s.discard c)
  /-- A buffer command fails after it has read IN. -/
  | failFrame {i : Instr} {c : ErrCode} (hi : writesOut i = true) (hc : c ≠ .ok) :
      CommandEffect s i (s.readIn.discard c)
  | crc {i : Instr} {c : Half} (hi : writesCrc i = true) (ho : writesOut i = false) :
      CommandEffect s i ((s.setCrc c).complete .ok)
  | lrc {i : Instr} {b : Byte} (hi : writesLrc i = true) (ho : writesOut i = false) :
      CommandEffect s i ((s.setLrcSum b).complete .ok)
  | crcBuf {c : Half} {bs : List Byte} (hn : bs.length = 2) :
      CommandEffect s .crcBuf (((s.readIn.setCrc c).putOut bs).complete .ok)
  | lrcBuf {b : Byte} {bs : List Byte} (hn : bs.length = 1) :
      CommandEffect s .lrcBuf (((s.readIn.setLrcSum b).putOut bs).complete .ok)
  /-- A frame command succeeds: what it puts in OUT fits. -/
  | frame {i : Instr} {bs : List Byte} (hi : writesOut i = true) (hn : bs.length ≤ s.params.bufBytes) :
      CommandEffect s i ((s.readIn.putOut bs).complete .ok)
  | grant {p : Nat} (hp : s.noSuchPort p = false) (hb : (s.port p).baud ≠ 0) (hh : s.holding p = false) :
      CommandEffect s (.gateTx p) (((s.noteOverlap p).grant p).complete .ok)
  | stamp {p : Nat} (hp : s.noSuchPort p = false) :
      CommandEffect s (.rxDone p) ((s.setPort p
        { s.port p with lastRead := s.time, hasRead := true, inflight := false }).complete .ok)

theorem embed_effect {i : Instr} (hi : writesOut i = true) (w : List Byte) :
    CommandEffect s i (s.embed w) := by
  unfold State.embed
  split
  · exact .failArgs hi (checkArgs_ne_ok ‹_›)
  · split
    · exact .failFrame hi (by simp)
    · exact .frame hi (by omega)

theorem extract_effect {i : Instr} (hi : writesOut i = true) {r : Except ErrCode (List Byte)}
    (he : ∀ e, r = .error e → e ≠ .ok) (hd : ∀ d, r = .ok d → d.length ≤ s.inCount) :
    CommandEffect s i (s.extract r) := by
  unfold State.extract
  split
  · exact .failArgs hi (checkArgs_ne_ok ‹_›)
  · rename_i hc
    cases r with
    | error e => exact .failFrame hi (he e rfl)
    | ok d => exact .frame hi (Nat.le_trans (hd d rfl) (checkArgs_lenOk hc))

theorem exec_effect {i : Instr} (h : exec i s = .next t) : CommandEffect s i t := by
  cases i with
  | crcInit => cases h; exact .crc rfl rfl
  | crcFeed b => cases h; exact .crc rfl rfl
  | crcBuf =>
    simp only [exec, execCrcBuf] at h
    split at h
    · cases h; exact .failArgs rfl (by simp)
    · cases h; exact .crcBuf rfl
  | lrcInit => cases h; exact .lrc rfl rfl
  | lrcFeed b => cases h; exact .lrc rfl rfl
  | lrcBuf =>
    simp only [exec, execLrcBuf] at h
    split at h
    · cases h; exact .failArgs rfl (by simp)
    · cases h; exact .lrcBuf rfl
  | embedRtu => cases h; exact embed_effect rfl _
  | embedAscii => cases h; exact embed_effect rfl _
  | extractRtu =>
    cases h
    refine extract_effect rfl (fun e => extractRtu_error_ne_ok) (fun d hd => ?_)
    have := extractRtu_length hd
    simp at this; omega
  | extractAscii =>
    cases h
    refine extract_effect rfl (fun e => extractAscii_error_ne_ok) (fun d hd => ?_)
    simpa using extractAscii_length hd
  | gateTx p =>
    simp only [exec, execGateTx] at h
    split at h
    · cases h; exact .fail rfl (by simp)
    · rename_i hp
      have hp : s.noSuchPort p = false := by simpa using hp
      split at h
      · cases h; exact .fail rfl (by simp)
      · split at h
        · cases h; exact .hold hp ‹_› ‹_›
        · cases h; exact .grant hp ‹_› (Bool.eq_false_of_not_eq_true ‹_›)
  | rxDone p =>
    simp only [exec, execRxDone] at h
    split at h
    · cases h; exact .fail rfl (by simp)
    · cases h; exact .stamp (Bool.eq_false_of_not_eq_true ‹_›)

/-- FAULTS after a grant: OVERLAP at most is added. -/
theorem State.noteOverlap_cases (s : State) (p : Nat) :
    s.noteOverlap p = s ∨ s.noteOverlap p = s.recordFault .overlap := by
  unfold State.noteOverlap
  split
  · exact .inr rfl
  · exact .inl rfl

end Sys2Proof.Machine
end

