-- ==== Sys2Proof/Tests/Slice0.lean ====
section
/-! SUPPORT. Tests. Expected values are those of 95_test_vectors and of the rules' own examples, not the model's; each
group names its source. After them, for each statement with hypotheses, a state and operands that meet them all
together (`witness_…`, with the statement's name), for each clause at a boundary of its range. -/

namespace Sys2Proof.Tests

open Sys2Proof Sys2Proof.Machine

-- One proof at a time: the kernel evaluations below then need no thread, and no stack, each.
set_option Elab.async false

/-! ### Helpers -/

/-- The next state of an outcome that has one. -/
def after : Host.Outcome State Fault Refusal → Option State
  | .next t => some t
  | .fault _ => none
  | .refused _ => none

/-- The reset block, but for SADDR, FCODE, LEN and IN: IN[0..LEN) holds `bs`. -/
def loaded (a f : Word) (bs : List Byte) : State :=
  { State.reset with
    saddr := a, fcode := f, len := BitVec.ofNat 32 bs.length, inBuf := Memory.write [] 0 bs }

/-- `loaded` in a block with the smallest legal buffers, 16 bytes. -/
def smallBlock (a f : Word) (bs : List Byte) : State :=
  { loaded a f bs with params := { Params.reference with bufBytes := 16 } }

/-- `s` with word `w` pending. -/
def pending (s : State) (w : Word) : State := { s with busy := true, curCmd := w }

/-- The reset block with port 0 as given, at time `now`. -/
def onPort (q : Port) (now : Stamp) : State :=
  { State.reset with ports := State.reset.ports.set 0 q, time := now }

/-- ERR, OUT_LEN and the listed bytes of OUT after a command. -/
def result (o : Host.Outcome State Fault Refusal) : Option (Byte × Word × List Byte) :=
  (after o).map (fun t => (t.err, t.outLen, t.outBuf.map Prod.snd))

/-- STATUS as it reads after an event. -/
def statusAfter (o : Host.Outcome State Fault Refusal) : Option Word := (after o).map State.statusWord

/-- What the host saw. -/
def responseAfter (o : Host.Outcome State Fault Refusal) : Option Response := (after o).map State.response

/-! ### WellFormed: the check of each operand refuses an ill-formed term (30_encoding R91: PORT has 4 bits) -/

theorem test_gateTx_16_illFormed : (Instr.gateTx 16).wellFormed = false := by decide

theorem test_rxDone_16_illFormed : (Instr.rxDone 16).wellFormed = false := by decide

theorem test_port_15_wellFormed :
    (Instr.gateTx 15).wellFormed = true ∧ (Instr.rxDone 15).wellFormed = true := by decide

/-! ### Decode: words written out bit by bit from R91, R92 (RES1, DATA, PORT, RES0, MODE, OP) -/

theorem test_decode_checksum_words :
    decode 0b00000000_00000000_0000_000_0_00000001 = .ok .crcInit ∧
    decode 0b00000000_10100101_0000_000_0_00000010 = .ok (.crcFeed 0xA5) ∧
    decode 0b00000000_00000000_0000_000_0_00000011 = .ok .crcBuf ∧
    decode 0b00000000_00000000_0000_000_0_00000100 = .ok .lrcInit ∧
    decode 0b00000000_11111111_0000_000_0_00000101 = .ok (.lrcFeed 0xFF) ∧
    decode 0b00000000_00000000_0000_000_0_00000110 = .ok .lrcBuf := by decide +kernel

theorem test_decode_frame_words :
    decode 0b00000000_00000000_0000_000_0_00010000 = .ok .embedRtu ∧
    decode 0b00000000_00000000_0000_000_1_00010000 = .ok .embedAscii ∧
    decode 0b00000000_00000000_0000_000_0_00010001 = .ok .extractRtu ∧
    decode 0b00000000_00000000_0000_000_1_00010001 = .ok .extractAscii := by decide +kernel

theorem test_decode_timing_words :
    decode 0b00000000_00000000_1010_000_0_00100000 = .ok (.gateTx 10) ∧
    decode 0b00000000_00000000_1111_000_0_00100001 = .ok (.rxDone 15) := by decide +kernel

/-- V-ILL, first bullet of R94: 0x00000000, 0x00000007, 0x000000FF, 0x00000012. -/
theorem test_decode_unknown_op :
    [0x00000000, 0x00000007, 0x000000FF, 0x00000012].map decode =
      List.replicate 4 (.error .unknownOp) := by decide +kernel

/-- V-ILL, the other bullets of R94. -/
theorem test_decode_unused_fields :
    [0x01000001, 0x00000201].map decode = List.replicate 2 (.error .reservedBits) ∧
    [0x00000101, 0x00000102, 0x00000103, 0x00000120].map decode =
      List.replicate 4 (.error .unusedMode) ∧
    [0x00001001, 0x00001010].map decode = List.replicate 2 (.error .unusedPort) ∧
    [0x00010001, 0x00010010, 0x00010020].map decode = List.replicate 3 (.error .unusedData) := by
  decide +kernel

/-- A table word decodes; a word with a bit above 31 is no command (R90). -/
theorem test_decodeTableWord :
    decodeTableWord 32 0x0000A020 = some (.gateTx 10) ∧ decodeTableWord 40 0x100000001 = none := by
  decide +kernel

/-- V-ILL: OUT_LEN = 5 stays, ERR 0x01, DONE = 1. -/
theorem test_illegal_word_completes :
    (after (step ((pending { State.reset with outLen := 5 } 0x00000012).sees .engine))).map
      (fun t => (t.err, t.done, t.busy, t.outLen)) = some (0x01, true, false, 5) := by decide +kernel

/-! ### Checksum functions -/

/-- V-STEP. -/
theorem test_crcStep :
    crcStep 0xFFFF 0x00 = 0x40BF ∧ crcStep 0xFFFF 0x01 = 0x807E ∧ crcStep 0x0000 0x00 = 0x0000 ∧
    crcStep 0x0000 0x01 = 0xC0C1 ∧ crcStep 0xFFFF 0xFF = 0x00FF ∧ crcStep 0x0A84 0x84 = 0x000A := by
  decide +kernel

/-- V-CRC: empty, 80, "123456789", 11 03 00 6B 00 03. -/
theorem test_crc16 :
    crc16 [] = 0xFFFF ∧ crc16 [0x80] = 0xE0BE ∧
    crc16 [0x31, 0x32, 0x33, 0x34, 0x35, 0x36, 0x37, 0x38, 0x39] = 0x4B37 ∧
    crcBytes [0x11, 0x03, 0x00, 0x6B, 0x00, 0x03] = [0x76, 0x87] := by decide +kernel

/-- V-LRC: empty, FF, 80, 01 FF, "123456789". -/
theorem test_lrc :
    lrc [] = 0x00 ∧ lrc [0xFF] = 0x01 ∧ lrc [0x80] = 0x80 ∧ lrc [0x01, 0xFF] = 0x00 ∧
    lrc [0x31, 0x32, 0x33, 0x34, 0x35, 0x36, 0x37, 0x38, 0x39] = 0x23 := by decide +kernel

/-! ### Checksum commands (V-CCMD) -/

/-- Row 1. -/
theorem test_crcInit :
    (after (exec .crcInit { State.reset with crc := 0x0A84 })).map State.crc = some 0xFFFF := by decide

/-- Row 2. -/
theorem test_crcFeed :
    (after (exec (.crcFeed 0x01) State.reset)).map State.crc = some 0x807E := by decide +kernel

/-- Row 4. -/
theorem test_crcBuf :
    result (exec .crcBuf (loaded 0 0 [0x01, 0x03, 0x00, 0x00, 0x00, 0x01])) =
      some (0x00, 2, [0x84, 0x0A]) := by decide +kernel

/-- Row 6: LEN = 1025. -/
theorem test_crcBuf_tooLong :
    (after (exec .crcBuf { State.reset with len := 1025, crc := 0x1234, outLen := 2 })).map
      (fun t => (t.err, t.crc, t.outLen)) = some (0x04, 0x1234, 0) := by decide +kernel

/-- Row 7: IN never written. -/
theorem test_crcBuf_undefined :
    (after (exec .crcBuf { State.reset with len := 1 })).map (fun t => (t.faults.undefRead, t.outLen)) =
      some (true, 2) := by decide +kernel

/-- Row 8. -/
theorem test_lrcInit :
    (after (exec .lrcInit { State.reset with lrcSum := 0x05 })).map State.lrcWord = some 0x00000000 := by
  decide

/-- Rows 9 and 11. -/
theorem test_lrcFeed :
    (after (exec (.lrcFeed 0x01) State.reset)).map State.lrcWord = some 0x000001FF ∧
    (after (exec (.lrcFeed 0x80) State.reset)).map State.lrcWord = some 0x00008080 := by decide

/-- Row 10: the sum wraps. -/
theorem test_lrcFeed_wraps :
    (after (exec (.lrcFeed 0x01) { State.reset with lrcSum := 0xFF })).map State.lrcWord = some 0 := by
  decide

/-- Row 12. -/
theorem test_lrcBuf :
    result (exec .lrcBuf (loaded 0 0 [0x01, 0x03, 0x00, 0x00, 0x00, 0x01])) = some (0x00, 1, [0xFB]) ∧
    (after (exec .lrcBuf (loaded 0 0 [0x01, 0x03, 0x00, 0x00, 0x00, 0x01]))).map State.lrcWord =
      some 0x000005FB := by decide +kernel

/-! ### Frame commands -/

/-- V-EM rows 1 and 5. -/
theorem test_embedRtu :
    result (exec .embedRtu (loaded 1 3 [0x00, 0x00, 0x00, 0x01])) =
      some (0x00, 8, [0x01, 0x03, 0x00, 0x00, 0x00, 0x01, 0x84, 0x0A]) ∧
    result (exec .embedRtu (loaded 247 127 [])) = some (0x00, 4, [0xF7, 0x7F, 0x06, 0x60]) := by
  decide +kernel

/-- V-EM rows 11 to 15: the checks and their order. -/
theorem test_embedRtu_arguments :
    [(248, 3), (0x100, 3), (1, 0), (1, 128), (248, 0)].map
        (fun (a, f) => result (exec .embedRtu (loaded a f []))) =
      [some (0x02, 0, []), some (0x02, 0, []), some (0x03, 0, []), some (0x03, 0, []),
       some (0x02, 0, [])] := by decide +kernel

/-- V-EM rows 4 and 8. -/
theorem test_embedAscii :
    result (exec .embedAscii (loaded 1 3 [])) =
      some (0x00, 9, [0x3A, 0x30, 0x31, 0x30, 0x33, 0x46, 0x43, 0x0D, 0x0A]) ∧
    result (exec .embedAscii (loaded 0 1 [0xAB])) =
      some (0x00, 11, [0x3A, 0x30, 0x30, 0x30, 0x31, 0x41, 0x42, 0x35, 0x34, 0x0D, 0x0A]) := by
  decide +kernel

/-- V-XR rows 1, 3, 5, 7, 8 and 9. -/
theorem test_extractRtu :
    [(1, 3, [0x01, 0x03, 0x02, 0x03, 0x02, 0x39, 0x75]), (1, 3, [0x01, 0x03, 0x40]),
     (1, 3, [0x01, 0x03, 0x02, 0x03, 0x02, 0x39, 0x74]), (2, 3, [0x01, 0x03, 0x02, 0x03, 0x02, 0x39, 0x75]),
     (1, 3, [0x01, 0x04, 0x02, 0x03, 0x02, 0x38, 0x01]), (1, 3, [0x01, 0x83, 0x02, 0xC0, 0xF1])].map
        (fun (a, f, bs) => result (exec .extractRtu (loaded a f bs))) =
      [some (0x00, 3, [0x02, 0x03, 0x02]), some (0x10, 0, []), some (0x15, 0, []), some (0x20, 0, []),
       some (0x21, 0, []), some (0x30, 0, [])] := by decide +kernel

/-- V-XR rows 2, 10 and 11: an empty payload; the address before the exception; 0x83 against function code 4. -/
theorem test_extractRtu_order :
    [(1, 3, [0x01, 0x03, 0x40, 0x21]), (2, 3, [0x01, 0x83, 0x02, 0xC0, 0xF1]),
     (1, 4, [0x01, 0x83, 0x02, 0xC0, 0xF1])].map
        (fun (a, f, bs) => result (exec .extractRtu (loaded a f bs))) =
      [some (0x00, 0, []), some (0x20, 0, []), some (0x21, 0, [])] := by decide +kernel

/-- V-XA rows 1, 3, 5, 6, 7, 8, 9 and 10. -/
theorem test_extractAscii :
    [[0x3A, 0x30, 0x31, 0x30, 0x33, 0x30, 0x32, 0x30, 0x33, 0x30, 0x32, 0x46, 0x35, 0x0D, 0x0A],
     [0x3A, 0x30, 0x31, 0x30, 0x33, 0x46, 0x43, 0x0D], [0x3B, 0x30, 0x31, 0x30, 0x33, 0x46, 0x43, 0x0D, 0x0A],
     [0x3A, 0x30, 0x31, 0x30, 0x33, 0x46, 0x43, 0x0A, 0x0D],
     [0x3A, 0x30, 0x31, 0x30, 0x33, 0x46, 0x43, 0x30, 0x0D, 0x0A],
     [0x3A, 0x30, 0x31, 0x30, 0x33, 0x66, 0x63, 0x0D, 0x0A],
     [0x3A, 0x30, 0x31, 0x3A, 0x33, 0x46, 0x43, 0x0D, 0x0A],
     [0x3A, 0x30, 0x31, 0x30, 0x33, 0x46, 0x44, 0x0D, 0x0A]].map
        (fun bs => result (exec .extractAscii (loaded 1 3 bs))) =
      [some (0x00, 3, [0x02, 0x03, 0x02]), some (0x10, 0, []), some (0x11, 0, []), some (0x12, 0, []),
       some (0x13, 0, []), some (0x14, 0, []), some (0x14, 0, []), some (0x15, 0, [])] := by decide +kernel

/-- V-XA rows 11, 12 and 13. -/
theorem test_extractAscii_header :
    [[0x3A, 0x30, 0x31, 0x38, 0x33, 0x30, 0x32, 0x37, 0x41, 0x0D, 0x0A],
     [0x3A, 0x30, 0x32, 0x30, 0x33, 0x30, 0x32, 0x30, 0x33, 0x30, 0x32, 0x46, 0x34, 0x0D, 0x0A],
     [0x3A, 0x30, 0x31, 0x30, 0x34, 0x30, 0x32, 0x30, 0x33, 0x30, 0x32, 0x46, 0x34, 0x0D, 0x0A]].map
        (fun bs => result (exec .extractAscii (loaded 1 3 bs))) =
      [some (0x30, 0, []), some (0x20, 0, []), some (0x21, 0, [])] := by decide +kernel

/-! ### Timing commands -/

/-- R213, and V-GATE row 10: SILENT reads 0 for BAUD 0. -/
theorem test_silent :
    [1, 9600, 19200, 38400, 115200, 0].map (silentOf Params.reference) =
      [38500000, 4011, 2006, 1003, 335, 0] := by decide +kernel

/-- V-GATE rows 3, 4 and 8: a hold of one tick, none, and one across the wrap of TIME. -/
theorem test_gateTx_hold :
    (onPort { Port.initial with hasRead := true, lastRead := 1000 } 5010).holding 0 = true ∧
    (onPort { Port.initial with hasRead := true, lastRead := 1000 } 5011).holding 0 = false ∧
    (onPort { Port.initial with hasRead := true, lastRead := 0xFFFFFFFFFFFFFFF6 } 4000).holding 0 = true ∧
    (onPort { Port.initial with hasRead := true, lastRead := 0xFFFFFFFFFFFFFFF6 } 4001).holding 0 = false := by
  decide +kernel

/-- V-GATE rows 1, 10, 11 and 12. -/
theorem test_gateTx :
    (after (exec (.gateTx 0) State.reset)).map (fun t => (t.err, (t.port 0).inflight)) =
      some (0x00, true) ∧
    (after (exec (.gateTx 0) (onPort { Port.initial with baud := 0 } 0))).map State.err = some 0x06 ∧
    (after (exec (.gateTx 4) State.reset)).map State.err = some 0x05 ∧
    (after (exec (.gateTx 15) State.reset)).map State.err = some 0x05 := by decide +kernel

/-- V-RX rows 14 and 16. -/
theorem test_rxDone :
    (after (exec (.rxDone 0) (onPort { Port.initial with baud := 0, inflight := true } 1000))).map
      (fun t => (t.err, t.port 0)) =
      some (0x00, { baud := 0, lastRead := 1000, hasRead := true, inflight := false }) := by decide +kernel

/-- V-RX row 15. -/
theorem test_rxDone_badPort : (after (exec (.rxDone 15) State.reset)).map State.err = some 0x05 := by decide

/-! ### Host accesses (V-BUS) -/

/-- A block whose port 0 has just completed a read. -/
def justRead : State := onPort { Port.initial with hasRead := true } 0

/-- Rows 1 and 2. -/
theorem test_status_while_holding :
    statusAfter (step (justRead.sees (.hostWrite 0x000 4 0x00000020))) = some 0x00000009 ∧
    statusAfter (step ((pending justRead 0x00000020).sees (.hostWrite 0x008 4 5))) = some 0x0000000D ∧
    (after (step ((pending justRead 0x00000020).sees (.hostWrite 0x008 4 5)))).map State.saddr = some 0 := by
  decide +kernel

/-- Rows 3 and 4. -/
theorem test_status_after_grant :
    statusAfter (step ((pending { State.reset with ovr := true } 0x00000020).sees .engine)) =
      some 0x00000006 ∧
    statusAfter (step (({ State.reset with ovr := true, done := true }).sees (.hostWrite 0x004 4 0x00000004))) =
      some 0x00000002 := by decide +kernel

/-- Row 5. -/
theorem test_in_word :
    (after (step (State.reset.sees (.hostWrite 0x1000 4 0x04030201)))).map State.inBuf =
      some [(0, 0x01), (1, 0x02), (2, 0x03), (3, 0x04)] ∧
    responseAfter (step ((loaded 0 0 [0x01, 0x02, 0x03, 0x04]).sees (.hostRead 0x1000 4))) =
      some (.data 0x04030201) := by decide +kernel

/-- Row 6. -/
theorem test_out_word :
    responseAfter (step (({ State.reset with
      outBuf := Memory.write [] 0 [0x01, 0x03, 0x00, 0x00, 0x00, 0x01, 0x84, 0x0A] }).sees
        (.hostRead 0x2004 4))) = some (.data 0x0A840100) := by decide +kernel

/-- Row 7: CMD reads 0. Row 11: PARAMS. -/
theorem test_constant_reads :
    responseAfter (step (State.reset.sees (.hostRead 0x000 4))) = some (.data 0x00000000) ∧
    responseAfter (step (State.reset.sees (.hostRead 0x028 4))) = some (.data 0x04000004) ∧
    responseAfter (step (State.reset.sees (.hostRead 0x104 4))) = some (.data 4011) := by decide +kernel

/-- Row 8: a 16-bit access, a misaligned one, one to 0x030. -/
theorem test_bus_errors :
    [.hostRead 0x004 2, .hostWrite 0x00A 4 1, .hostRead 0x030 4].map
        (fun e => (after (step (State.reset.sees e))).map (fun t => (t.response, t.faults.busError))) =
      List.replicate 3 (some (Response.busError, true)) := by decide +kernel

/-- Row 9: OUT word 1 before any command wrote OUT. -/
theorem test_undefined_out_word :
    (after (step (State.reset.sees (.hostRead 0x2004 4)))).map (fun t => t.faults.undefRead) =
      some true := by decide +kernel

/-- R274: the state after reset with no more accesses is final; one with a command pending is not. -/
theorem test_isFinal : State.reset.isFinal = true ∧ (pending State.reset 0x00000001).isFinal = false := by
  decide

/-- The word that withFetchWord places is the command the next step runs, from reset. -/
theorem test_withFetchWord :
    (after (step (State.reset.withFetchWord 32 0x00010002))).map (fun t => (t.crc, t.busy, t.done)) =
      some (0x807E, false, true) := by decide +kernel

/-! ### Witnesses: command words, accept and completion -/

theorem witness_IllegalWordsAreThoseListed :
    (pending State.reset 0x00000000).Pending ∧ ∀ i, decode (pending State.reset 0x00000000).curCmd ≠ .ok i := by
  refine ⟨⟨rfl, rfl⟩, fun i h => ?_⟩
  have hd : decode (pending State.reset 0x00000000).curCmd = .error .unknownOp := by decide +kernel
  exact absurd (hd.symm.trans h) (by simp)

/-- The idle clause too: nothing scheduled, no hold. -/
theorem witness_EngineStepRunsTheDecodedCommand :
    (pending State.reset 0x0000F021).Pending ∧
    decode (pending State.reset 0x0000F021).curCmd = .ok (.rxDone 15) ∧
    (pending State.reset 0x0000F021).schedule = [] ∧ (pending State.reset 0x0000F021).waiting = false :=
  ⟨⟨rfl, rfl⟩, by decide +kernel, rfl, by decide +kernel⟩

theorem witness_CmdWriteAcceptsTheWord : State.reset.Idle := ⟨rfl, rfl⟩

/-- A completion, and a hold that goes on. -/
theorem witness_CommandsCompleteWithOneKnownCode :
    (after (exec .crcInit State.reset)).map (fun t => (t.busy, t.done, t.err)) =
      some (false, true, 0x00) ∧
    (pending justRead 0x00000020).holding 0 = true ∧
    exec (.gateTx 0) (pending justRead 0x00000020) = .next (pending justRead 0x00000020) :=
  ⟨by decide +kernel, by decide +kernel, rfl⟩

/-- BUSY rises, falls by completion, falls by reset, stays. -/
theorem witness_BusyIsSetByAcceptClearedByCompletion :
    (State.reset.busy = false ∧
      (after (step (State.reset.sees (.hostWrite 0x000 4 0x00000001)))).map State.busy = some true) ∧
    (after (step ((pending State.reset 0x00000001).sees .engine))).map State.busy = some false ∧
    (after (step (({ pending State.reset 0x00000001 with inReset := true }).sees .resetRelease))).map
      State.busy = some false ∧
    (after (step ((pending justRead 0x00000020).sees .engine))).map State.busy = some true := by
  decide +kernel

theorem witness_ChecksumsSeeEveryOneByteChange : (0x00 : Byte) ≠ 0x80 := by decide

/-! ### Witnesses: the buffer operand at its largest length, and one more -/

theorem witness_CrcBufComputesCrcOfInput :
    (smallBlock 0 0 (List.replicate 16 0x5A)).InputIs (List.replicate 16 0x5A) ∧
    (List.replicate 16 (0x5A : Byte)).length ≤ (smallBlock 0 0 (List.replicate 16 0x5A)).params.bufBytes ∧
    State.reset.params.bufBytes < ({ State.reset with len := 1025 } : State).len.toNat := by
  unfold State.InputIs; decide +kernel

theorem witness_LrcBufComputesLrcOfInput :
    (loaded 0 0 []).InputIs [] ∧ ([] : List Byte).length ≤ (loaded 0 0 []).params.bufBytes ∧
    State.reset.params.bufBytes < ({ State.reset with len := 0xFFFFFFFF } : State).len.toNat := by
  unfold State.InputIs; decide +kernel

theorem witness_StreamingAgreesWithBuffer :
    (smallBlock 0 0 (List.replicate 16 0x01)).InputIs (List.replicate 16 0x01) ∧
    (List.replicate 16 (0x01 : Byte)).length ≤
      (smallBlock 0 0 (List.replicate 16 0x01)).params.bufBytes := by
  unfold State.InputIs; decide +kernel

/-- A one-byte input of which nothing is defined. -/
theorem witness_UndefinedInputBytesAreFreeValues :
    writesOut .crcBuf = true ∧ ({ State.reset with len := 1 } : State).lenTooLong = false ∧
    [Config.undefinedByte 0 0].length = ({ State.reset with len := 1 } : State).len.toNat ∧
    (∀ a, a < 1 → [Config.undefinedByte 0 0][a]? =
      some ((Memory.get State.reset.inBuf a).getD (Config.undefinedByte State.reset.draws a))) ∧
    (∃ a, a < ({ State.reset with len := 1 } : State).len.toNat ∧ Memory.get State.reset.inBuf a = none) ∧
    (∃ t, exec .crcBuf { ({ State.reset with len := 1 } : State) with
      inBuf := Memory.write [] 0 [Config.undefinedByte 0 0] } = .next t) := by
  refine ⟨rfl, by decide, rfl, fun a h => ?_, ⟨0, by decide, rfl⟩, ⟨_, rfl⟩⟩
  have ha : a = 0 := by omega
  subst ha
  rfl

/-! ### Witnesses: frame commands -/

/-- 248; 247 with 0 and with 128; 247 with 1 and with 127, LEN = BUF_BYTES + 1. -/
theorem witness_FrameArgumentsAreCheckedInOrder :
    Instr.extractAscii ∈ [Instr.embedRtu, .embedAscii, .extractRtu, .extractAscii] ∧
    247 < (loaded 248 3 []).saddr.toNat ∧
    ((loaded 247 0 []).saddr.toNat ≤ 247 ∧ (loaded 247 0 []).fcode.toNat < 1) ∧
    127 < (loaded 247 128 []).fcode.toNat ∧
    (1 ≤ (loaded 247 1 []).fcode.toNat ∧ (loaded 247 127 []).fcode.toNat ≤ 127) ∧
    ({ loaded 247 127 [] with len := 1025 } : State).params.bufBytes <
      ({ loaded 247 127 [] with len := 1025 } : State).len.toNat := by
  decide +kernel

/-- 12 payload bytes just fit a 16-byte buffer, 13 do not. -/
theorem witness_EmbedRtuBuildsTheFrame :
    ((smallBlock 247 127 (List.replicate 12 0xAB)).ArgsValid ∧
      (smallBlock 247 127 (List.replicate 12 0xAB)).InputIs (List.replicate 12 0xAB) ∧
      (List.replicate 12 (0xAB : Byte)).length + 4 ≤
        (smallBlock 247 127 (List.replicate 12 0xAB)).params.bufBytes) ∧
    ((smallBlock 0 1 (List.replicate 13 0xAB)).ArgsValid ∧
      (smallBlock 0 1 (List.replicate 13 0xAB)).InputIs (List.replicate 13 0xAB) ∧
      (smallBlock 0 1 (List.replicate 13 0xAB)).params.bufBytes <
        (List.replicate 13 (0xAB : Byte)).length + 4) := by
  unfold State.InputIs State.ArgsValid; decide +kernel

/-- 3 payload bytes just fit, 4 do not. -/
theorem witness_EmbedAsciiBuildsTheFrame :
    ((smallBlock 247 127 [1, 2, 3]).ArgsValid ∧ (smallBlock 247 127 [1, 2, 3]).InputIs [1, 2, 3] ∧
      2 * [1, 2, 3].length + 9 ≤ (smallBlock 247 127 [1, 2, 3]).params.bufBytes) ∧
    ((smallBlock 0 1 [1, 2, 3, 4]).ArgsValid ∧ (smallBlock 0 1 [1, 2, 3, 4]).InputIs [1, 2, 3, 4] ∧
      (smallBlock 0 1 [1, 2, 3, 4]).params.bufBytes < 2 * [1, 2, 3, 4].length + 9) := by
  unfold State.InputIs State.ArgsValid; decide +kernel

/-- The hypotheses of the statements about EXTRACT, for frame `w` received in the reset block. -/
def Received (a f : Word) (w : List Byte) : Prop := (loaded a f w).ArgsValid ∧ (loaded a f w).InputIs w

/-- n = 3; n = 4 with a wrong CRC byte in either place; n = 4 with its CRC: another address, the exception, another
function code, the frame itself (V-XR). -/
theorem witness_ExtractRtuReportsTheFirstFailure :
    Received 1 3 [0x01, 0x03, 0x40] ∧
    (Received 1 3 [0x01, 0x03, 0x41, 0x21] ∧ (0x41 : Byte) ≠ (crc16 [0x01, 0x03]).extractLsb' 0 8) ∧
    (Received 1 3 [0x01, 0x03, 0x40, 0x20] ∧ (0x20 : Byte) ≠ (crc16 [0x01, 0x03]).extractLsb' 8 8) ∧
    (Received 2 3 [0x01, 0x03, 0x40, 0x21] ∧ (0x40 : Byte) = (crc16 [0x01, 0x03]).extractLsb' 0 8 ∧
      (0x21 : Byte) = (crc16 [0x01, 0x03]).extractLsb' 8 8 ∧ (0x01 : Byte) ≠ 2) ∧
    (Received 1 3 [0x01, 0x83, 0x02, 0xC0, 0xF1] ∧ crc16 [0x01, 0x83, 0x02] = 0xF1C0 ∧
      (0x83 : Byte) = 0x03 ||| 0x80) ∧
    (Received 1 4 [0x01, 0x03, 0x40, 0x21] ∧ (0x03 : Byte) ≠ 4 ∧ (0x03 : Byte) ≠ 0x04 ||| 0x80) ∧
    Received 1 3 [0x01, 0x03, 0x40, 0x21] := by
  unfold Received State.InputIs State.ArgsValid
  refine ⟨?_, ?_, ?_, ?_, ?_, ?_, ?_⟩ <;> decide +kernel

/-- n = 8; n = 9 with a wrong header, a wrong footer, a digit that is none at the first and the last place; n = 10. -/
theorem witness_ExtractAsciiChecksTheDelimitersInOrder :
    Received 1 3 [0x3A, 0x30, 0x31, 0x30, 0x33, 0x46, 0x43, 0x0D] ∧
    Received 1 3 [0x3B, 0x30, 0x31, 0x30, 0x33, 0x46, 0x43, 0x0D, 0x0A] ∧
    Received 1 3 [0x3A, 0x30, 0x31, 0x30, 0x33, 0x46, 0x43, 0x0A, 0x0D] ∧
    Received 1 3 [0x3A, 0x30, 0x31, 0x30, 0x33, 0x46, 0x43, 0x30, 0x0D, 0x0A] ∧
    Received 1 3 [0x3A, 0x2F, 0x31, 0x30, 0x33, 0x46, 0x43, 0x0D, 0x0A] ∧
    Received 1 3 [0x3A, 0x30, 0x31, 0x30, 0x33, 0x46, 0x47, 0x0D, 0x0A] := by
  unfold Received State.InputIs State.ArgsValid; decide +kernel

/-- m = 3: a wrong LRC; with its LRC, another address, the exception, another function code, the frame itself. -/
theorem witness_ExtractAsciiChecksTheDecodedBytes :
    (Received 1 3 ([0x3A] ++ hexenc [0x01, 0x03, 0xFD] ++ [0x0D, 0x0A]) ∧ lrc [0x01, 0x03] = 0xFC) ∧
    Received 2 3 ([0x3A] ++ hexenc [0x01, 0x03, 0xFC] ++ [0x0D, 0x0A]) ∧
    (Received 1 3 ([0x3A] ++ hexenc [0x01, 0x83, 0x7C] ++ [0x0D, 0x0A]) ∧ lrc [0x01, 0x83] = 0x7C ∧
      (0x83 : Byte) = 0x03 ||| 0x80) ∧
    Received 1 4 ([0x3A] ++ hexenc [0x01, 0x03, 0xFC] ++ [0x0D, 0x0A]) ∧
    Received 1 3 ([0x3A] ++ hexenc [0x01, 0x03, 0xFC] ++ [0x0D, 0x0A]) := by
  unfold Received State.InputIs State.ArgsValid; decide +kernel

theorem witness_HexCodeIsInvertible : hexdec [0x46, 0x43] = some [0xFC] ∧ hexdec [0x66, 0x63] = none := by
  decide

/-- The block after EMBED.RTU of one payload byte. -/
def embedded : State :=
  (loaded 1 3 [0xAB]).embed
    (rtuFrame (loaded 1 3 [0xAB]).addressByte (loaded 1 3 [0xAB]).functionByte (loaded 1 3 [0xAB]).inBytes)

/-- A block whose IN and LEN are a copy of what EMBED left. -/
def copied : State := { loaded 1 3 [] with inBuf := embedded.outBuf, len := embedded.outLen }

theorem witness_ExtractOfEmbedIsThePayload :
    (loaded 1 3 [0xAB]).params.Legal ∧ (loaded 1 3 [0xAB]).ArgsValid ∧ (loaded 1 3 [0xAB]).InputIs [0xAB] ∧
    exec .embedRtu (loaded 1 3 [0xAB]) = .next embedded ∧ embedded.err = 0x00 ∧
    copied.params = (loaded 1 3 [0xAB]).params ∧ copied.saddr = (loaded 1 3 [0xAB]).saddr ∧
    copied.fcode = (loaded 1 3 [0xAB]).fcode ∧ copied.len = embedded.outLen ∧
    (∀ a, a < embedded.outLen.toNat → Memory.get copied.inBuf a = Memory.get embedded.outBuf a) := by
  exact ⟨by decide, by unfold State.ArgsValid; decide, by unfold State.InputIs; decide, rfl, by decide +kernel,
    rfl, rfl, rfl, rfl, fun _ _ => rfl⟩

/-- The last bit of the payload; in ASCII the header, the first and the last character after it that is no checksum
character, and the footer's two ends. -/
theorem witness_ExtractSeesEverySingleBitFlip :
    (Received 1 3 (flipBit (rtuFrame 1 3 [0xAB]) 2 7) ∧ 2 < [(0xAB : Byte)].length + 2) ∧
    Received 1 3 (flipBit (asciiFrame 1 3 [0xAB]) 0 0) ∧
    Received 1 3 (flipBit (asciiFrame 1 3 [0xAB]) 1 0) ∧
    (Received 1 3 (flipBit (asciiFrame 1 3 [0xAB]) 6 5) ∧ 6 < 2 * [(0xAB : Byte)].length + 5) ∧
    (Received 1 3 (flipBit (asciiFrame 1 3 [0xAB]) 9 0) ∧ 2 * [(0xAB : Byte)].length + 7 ≤ 9) ∧
    (Received 1 3 (flipBit (asciiFrame 1 3 [0xAB]) 10 7) ∧ 10 < 2 * [(0xAB : Byte)].length + 9) := by
  unfold Received State.InputIs State.ArgsValid; decide +kernel

/-- Another address; the exception; another function code; in both modes. -/
theorem witness_MismatchedResponsesAreReported :
    (Received 247 3 (rtuFrame 246 3 [0xAB]) ∧ Received 247 3 (asciiFrame 246 3 [0xAB])) ∧
    (Received 1 127 (rtuFrame 1 0xFF [0x02]) ∧ (0xFF : Byte) = 0x7F ||| 0x80) ∧
    (Received 1 3 (asciiFrame 1 4 [0x02]) ∧ (4 : Byte) ≠ 0x03 ||| 0x80) := by
  unfold Received State.InputIs State.ArgsValid; decide +kernel

/-! ### Witnesses: timing commands -/

/-- Port 4 of 4; port 3 of 4, with no baud rate, holding (elapsed 4010 of 4011), and granted at 4011 or with no read. -/
theorem witness_GateTxHoldsThenGrants :
    State.reset.params.numPorts ≤ 4 ∧ 3 < State.reset.params.numPorts ∧
    ((State.reset.setPort 3 { Port.initial with baud := 0 }).ports[3]? =
      some { Port.initial with baud := 0 }) ∧
    (({ State.reset.setPort 3 { Port.initial with hasRead := true } with time := 4010 } : State).ports[3]? =
        some { Port.initial with hasRead := true } ∧
      ((4010 : Stamp) - 0).toNat < (silentOf Params.reference 9600).toNat) ∧
    (silentOf Params.reference 9600).toNat ≤ ((4011 : Stamp) - 0).toNat ∧
    (State.reset.ports[3]? = some Port.initial ∧ Port.initial.baud ≠ 0 ∧ Port.initial.hasRead = false ∧
      Port.initial.inflight = false) := by decide +kernel

theorem witness_OverlappingGateTxIsRecorded :
    0 < (onPort { Port.initial with inflight := true } 0).params.numPorts ∧
    (onPort { Port.initial with inflight := true } 0).ports[0]? = some { Port.initial with inflight := true } ∧
    (onPort { Port.initial with inflight := true } 0).holding 0 = false ∧
    (after (exec (.gateTx 0) (onPort { Port.initial with inflight := true } 0))).map
      (fun t => t.faults.overlap) = some true := by decide +kernel

theorem witness_RxDoneStampsThePort :
    State.reset.params.numPorts ≤ 4 ∧ 3 < State.reset.params.numPorts ∧
    State.reset.ports[3]? = some Port.initial := by decide

/-- The largest legal TICK_HZ at the lowest rate gives the largest period. -/
theorem witness_SilentIsTheCeilingOfThePeriod :
    ({ Params.reference with tickHz := 100000000 } : Params).Legal ∧ (1 : Word) ≠ 0 ∧
    silentOf { Params.reference with tickHz := 100000000 } 1 = 3850000000 := by decide +kernel

theorem witness_WaitIsAHeldGateTx :
    (pending justRead 0x00000020).waiting = true ∧ (pending State.reset 0x00000020).waiting = false := by
  decide +kernel

theorem witness_GrantsComeOnlyAfterTheSilence :
    ((pending State.reset 0x00000020).port 0).inflight = false ∧
    (after (step ((pending State.reset 0x00000020).sees .engine))).map (fun t => (t.port 0).inflight) =
      some true := by decide +kernel

theorem witness_HoldLastsTheRestOfTheSilence :
    (pending justRead 0x00000020).Pending ∧ (pending justRead 0x00000020).schedule = [] ∧
    decode (pending justRead 0x00000020).curCmd = .ok (.gateTx 0) ∧
    (pending justRead 0x00000020).waiting = true :=
  ⟨⟨rfl, rfl⟩, rfl, by decide +kernel, by decide +kernel⟩

/-! ### Witnesses: frames and errors -/

/-- A command for each guard: none of CRC, LRC and OUT written; another port than the command's. -/
theorem witness_CommandsWriteOnlyTheirOwnState :
    (∃ t, exec (.rxDone 0) State.reset = .next t) ∧ writesCrc (.rxDone 0) = false ∧
    writesLrc (.rxDone 0) = false ∧ writesOut (.rxDone 0) = false ∧ portOf (.rxDone 0) ≠ some 3 ∧
    (Instr.gateTx 3 ≠ .rxDone 3) := ⟨⟨_, rfl⟩, by decide⟩

theorem witness_OutBeyondOutLenIsUnchanged :
    State.reset.params.Legal ∧
    (after (exec .lrcBuf State.reset)).map (fun t => (t.outLen, Memory.get t.outBuf 1)) =
      some (1, none) := by decide +kernel

/-- A buffer command, another command and an illegal word that fail. -/
theorem witness_FailedCommandsDiscardTheirOutput :
    [0x00000010, 0x0000F020, 0x00000000].map
        (fun w => (after (step ((pending { State.reset with outLen := 5 } w).sees .engine))).map
          (fun t => (t.busy, t.err, t.outLen))) =
      [some (false, 0x03, 0), some (false, 0x05, 5), some (false, 0x01, 5)] := by decide +kernel

theorem witness_FailedCommandsArePrecise :
    (pending State.reset 0x00000010).Pending ∧
    (after (step ((pending State.reset 0x00000010).sees .engine))).map (fun t => (t.busy, t.err)) =
      some (false, 0x03) := ⟨⟨rfl, rfl⟩, by decide +kernel⟩

/-! ### Witnesses: host accesses -/

/-- The first and last register of each part of the map, at the offsets of 20_memory R61. -/
theorem witness_RegisterMapIsTheTable :
    Params.reference.Legal ∧
    [0x000, 0x02C, 0x100, 0x110, 0x160, 0x170, 0x1000, 0x13FC, 0x2000, 0x23FC].map
        (regAt Params.reference) =
      [some .cmd, some .tickhz, some (.baud 0), some (.lastReadHi 0), some (.baud 3), some (.lastReadHi 3),
       some (.inWord 0), some (.inWord 255), some (.outWord 0), some (.outWord 255)] := by decide +kernel

/-- The bounds of each reserved range of R61 are reserved, and no register is there. -/
theorem witness_BadAccessesGetABusError :
    State.reset.inReset = false ∧ State.reset.params.Legal ∧
    (∀ off ∈ [0x030, 0x0FC, 0x114, 0x11C, 0x180, 0x2FC, 0x300, 0xFFC, 0x1400, 0x1FFC, 0x2400, 0x2FFC],
      off < 0x3000 ∧ ReservedOffset Params.reference off ∧ regAt Params.reference off = none) ∧
    (2 ≠ 4 ∧ 0x2FFE % 4 ≠ 0) := by
  unfold ReservedOffset; decide +kernel

/-- One byte past the window, and one byte before the window of a block at 0x1000. -/
theorem witness_AccessOutsideTheWindowStops :
    State.reset.params.base + 0x3000 ≤ 0x3000 ∧
    0xFFF < ({ State.reset with params := { Params.reference with base := 0x1000 } } : State).params.base := by
  decide

theorem witness_OperandRegistersAreReadWrite :
    State.reset.Idle ∧ State.reset.params.Legal ∧ 3 < State.reset.params.numPorts ∧
    State.reset.ports[3]? = some Port.initial := ⟨⟨rfl, rfl⟩, by decide, by decide, rfl⟩

/-- The last word of IN. -/
theorem witness_InWordWriteSetsFourBytes :
    State.reset.Idle ∧ State.reset.params.Legal ∧ 255 < State.reset.params.bufBytes / 4 :=
  ⟨⟨rfl, rfl⟩, by decide, by decide⟩

/-- A defined word 0; the last word of IN with its last byte undefined. -/
theorem witness_BufferWordReadIsLittleEndian :
    Memory.get (loaded 0 0 [1, 2, 3, 4]).inBuf 0 = some 1 ∧ Memory.get (loaded 0 0 [1, 2, 3, 4]).inBuf 3 = some 4 ∧
    255 < State.reset.params.bufBytes / 4 ∧ Memory.get State.reset.outBuf (4 * 255 + 3) = none ∧
    State.reset.busy = false := by decide

theorem witness_WritesWhileBusyAreDropped :
    (pending State.reset 0x00000001).Pending ∧ State.reset.params.Legal ∧
    (∀ r ∈ [Reg.cmd, .saddr, .fcode, .len, .baud 3, .inWord 255],
      Reg.Exists Params.reference r ∧ r.isWritable = true) := by
  refine ⟨⟨rfl, rfl⟩, by decide, ?_⟩
  simp [Reg.Exists, Reg.isWritable, Params.reference]

/-- BUSY and not; a STATUS write with bit 2 set and clear. -/
theorem witness_ReadOnlyWritesAreIgnored :
    State.reset.inReset = false ∧ (pending State.reset 0x00000001).inReset = false ∧
    Reg.Exists Params.reference (.outWord 255) ∧ Reg.isWritable (.outWord 255) = false ∧
    (0x00000004 : Word).getLsbD 2 = true ∧ (0xFFFFFFFB : Word).getLsbD 2 = false := by
  refine ⟨rfl, rfl, ?_, rfl, by decide, by decide⟩
  simp [Reg.Exists, Params.reference]

theorem witness_StatusReadHasTheFieldsInPlace : (pending justRead 0x00000020).inReset = false := rfl

/-- BUSY = 0; and BUSY = 1 with an RX_DONE on another port pending. -/
theorem witness_ReadOnlyRegistersReadTheirFields :
    State.reset.Idle ∧ State.reset.params.Legal ∧ 3 < State.reset.params.numPorts ∧
    State.reset.ports[3]? = some Port.initial ∧
    (pending State.reset 0x00002021).Pending ∧ decode (pending State.reset 0x00002021).curCmd = .ok (.rxDone 2) ∧
    Instr.rxDone 2 ≠ .rxDone 3 :=
  ⟨⟨rfl, rfl⟩, by decide, by decide, rfl, ⟨rfl, rfl⟩, by decide +kernel, by decide⟩

/-- A pending RX_DONE on port 3. -/
theorem witness_ResultReadsWhileBusyAreDraws :
    (pending State.reset 0x00003021).Pending ∧ State.reset.params.Legal ∧
    Reg.Exists Params.reference (.lastReadHi 3) ∧
    decode (pending State.reset 0x00003021).curCmd = .ok (.rxDone 3) := by
  refine ⟨⟨rfl, rfl⟩, by decide, ?_, by decide +kernel⟩
  simp [Reg.Exists, Params.reference]

/-- TIME_HI changes between the two reads. -/
theorem witness_TimeReadsAreCoherent :
    State.reset.inReset = false ∧
    ({ State.reset with
        time := 0x00000000FFFFFFFF
        schedule := [.hostRead 0x020 4, .tick, .hostRead 0x024 4] } : State).schedule =
      .hostRead (State.reset.busAddr 0x020) 4 ::
        (List.replicate 1 .tick ++ [.hostRead (State.reset.busAddr 0x024) 4]) := by decide

theorem witness_TimeCountsOnlyTicks :
    State.reset.inReset = false ∧ Event.engine ≠ .tick ∧ Event.engine ≠ .resetRelease ∧
    (∃ t, step ((pending State.reset 0x00000001).sees .engine) = .next t) :=
  ⟨rfl, by decide, by decide, ⟨_, rfl⟩⟩

/-! ### Witnesses: reset and whole-machine rules -/

/-- While reset is asserted: an access, and the release. -/
theorem witness_ResetGivesEveryFieldItsResetValue :
    ({ State.reset with inReset := true } : State).inReset = true ∧
    Event.hostWrite 0x000 4 0x00000001 ≠ .resetRelease ∧
    (after (step (({ State.reset with inReset := true }).sees (.hostWrite 0x000 4 0x00000001)))).map
      (fun t => (t.busy, t.response)) = some (false, .notTaken) := by decide +kernel

/-- The reset block meets the invariant, and it takes a step. -/
theorem witness_EveryStepKeepsTheInvariant : State.reset.Invariant ∧ ∃ t, step State.reset = .next t := by
  refine ⟨⟨by decide, by decide, by decide, by simp [State.reset, State.initial, Memory.get], by decide,
    by simp [State.reset, State.initial, Memory.get], by decide, by simp [State.reset, State.initial],
    ⟨.ok, rfl⟩, by simp [State.reset, State.initial], fun _ => rfl, ?_⟩, ⟨_, rfl⟩⟩
  simp [State.reset, State.initial, Port.initial]

/-- A fault recorded, and then a reset. -/
theorem witness_FaultsAreNeverRemoved :
    (FaultSet.empty.add .overlap).has .overlap = true ∧
    (after (step (({ State.reset with inReset := true, faults := FaultSet.empty.add .overlap }).sees
      .resetRelease))).map (fun t => t.faults.has .overlap) = some true := by decide

/-- BUSY before and after a dropped write. -/
theorem witness_OperandsAreFrozenWhileBusy :
    (pending State.reset 0x00000001).busy = true ∧
    (after (step ((pending State.reset 0x00000001).sees (.hostWrite 0x008 4 5)))).map State.busy =
      some true := by decide +kernel

end Sys2Proof.Tests
end

/-! # The invariant of the machine

Every step keeps `State.Invariant` (10_state R24, R27, R31, R37, R38, R42, R44; 60_exceptions R231). One rule for each
named update of State, then one lemma for reads, writes, commands and events, over the effects of Laws/Step.lean. -/

namespace Sys2Proof.Machine

variable {s t : State}

/-! ### Buffers -/

/-- A buffer that lies inside its first `n` bytes stays inside them when a string that fits is written. -/
theorem Memory.lt_of_get_write_isSome {m : Memory} {n a x : Nat} {bs : List Byte}
    (hm : ∀ y, (Memory.get m y).isSome → y < n) (hfit : a + bs.length ≤ n)
    (hx : (Memory.get (Memory.write m a bs) x).isSome) : x < n := by
  rw [Memory.get_write] at hx
  split at hx
  · omega
  · exact hm x hx

/-- The string just written is defined. -/
theorem Memory.get_write_isSome {a x : Nat} {bs : List Byte} (m : Memory) (h : a ≤ x)
    (hx : x < a + bs.length) : (Memory.get (Memory.write m a bs) x).isSome := by
  rw [Memory.get_write, if_pos ⟨h, hx⟩, List.getElem?_eq_getElem (by omega)]
  rfl

theorem globalReg_ne_inWord (off k : Nat) : globalReg off ≠ some (.inWord k) := by
  unfold globalReg
  split <;> simp

theorem portReg_ne_inWord (p sub k : Nat) : portReg p sub ≠ some (.inWord k) := by
  unfold portReg
  split <;> simp

/-- The register map gives IN words only inside BUF_BYTES (20_memory R61). -/
theorem regAt_inWord_fits {p : Params} {off k : Nat} (hp : p.Legal) (h : regAt p off = some (.inWord k)) :
    4 * k + 4 ≤ p.bufBytes := by
  obtain ⟨-, h4, -⟩ := hp
  unfold regAt at h
  split_ifs at h
  · exact absurd h (globalReg_ne_inWord _ _)
  · exact absurd h (portReg_ne_inWord _ _ _)
  · cases h; omega
  · cases h

theorem select_inWord_fits {addr width k : Nat} (hp : s.params.Legal)
    (h : s.select addr width = some (.inWord k)) : 4 * k + 4 ≤ s.params.bufBytes := by
  unfold State.select at h
  split at h
  · exact regAt_inWord_fits hp h
  · cases h

/-! ### The fields the invariant speaks of -/

/-- `t` has `s`'s value in every field that `State.Invariant` reads; by default each holds by computation. -/
structure State.AgreesOnInvariant (s t : State) : Prop where
  params : t.params = s.params := by rfl
  busy : t.busy = s.busy := by rfl
  done : t.done = s.done := by rfl
  err : t.err = s.err := by rfl
  outLen : t.outLen = s.outLen := by rfl
  inBuf : t.inBuf = s.inBuf := by rfl
  outBuf : t.outBuf = s.outBuf := by rfl
  ports : t.ports = s.ports := by rfl

theorem State.Invariant.of_agrees (h : s.Invariant) (a : s.AgreesOnInvariant t) : t.Invariant := by
  obtain ⟨params, busy, done, err, outLen, inBuf, outBuf, ports⟩ := a
  obtain ⟨legal, count, inC, inB, outC, outB, fits, defd, errK, notDone, errDone, quiet⟩ := h
  constructor <;> simpa only [params, busy, done, err, outLen, inBuf, outBuf, ports]

/-! ### The named updates of State -/

theorem State.Invariant.initial {p : Params} (hp : p.Legal) : (State.initial p).Invariant where
  legal := hp
  portCount := List.length_replicate
  inCanonical := Memory.canonical_nil
  inBound _ h := by cases h
  outCanonical := Memory.canonical_nil
  outBound _ h := by cases h
  outLenFits := Nat.zero_le _
  outDefined a h := absurd h (Nat.not_lt_zero a)
  errKnown := ⟨.ok, rfl⟩
  pendingNotDone _ := rfl
  errNeedsDone _ := rfl
  quietPort q hq _ := by rw [List.eq_of_mem_replicate hq]; rfl

theorem State.Invariant.released (h : s.Invariant) : s.released.Invariant :=
  (State.Invariant.initial h.legal).of_agrees {}

theorem State.Invariant.accept (h : s.Invariant) (w : Word) : (s.accept w).Invariant :=
  { h with
    errKnown := ⟨.ok, rfl⟩
    pendingNotDone := fun _ => rfl
    errNeedsDone := fun _ => rfl }

theorem State.Invariant.complete (h : s.Invariant) (c : ErrCode) : (s.complete c).Invariant :=
  { h with
    errKnown := ⟨c, rfl⟩
    pendingNotDone := fun hb => by cases hb
    errNeedsDone := fun hd => by cases hd }

theorem State.Invariant.discard (h : s.Invariant) (c : ErrCode) : (s.discard c).Invariant :=
  { h.complete c with
    outLenFits := Nat.zero_le _
    outDefined := fun a ha => absurd ha (Nat.not_lt_zero a) }

theorem State.Invariant.putOut (h : s.Invariant) {bs : List Byte} (hn : bs.length ≤ s.params.bufBytes) :
    (s.putOut bs).Invariant := by
  have hlen : (s.putOut bs).outLen.toNat ≤ bs.length := Nat.mod_le _ _
  exact
    { h with
      outCanonical := Memory.canonical_write h.outCanonical 0 bs
      outBound := fun _ => Memory.lt_of_get_write_isSome h.outBound ((Nat.zero_add _).trans_le hn)
      outLenFits := hlen.trans hn
      outDefined := fun a ha => Memory.get_write_isSome s.outBuf (Nat.zero_le a) (by omega) }

theorem State.Invariant.writeIn (h : s.Invariant) {a : Nat} {bs : List Byte}
    (hn : a + bs.length ≤ s.params.bufBytes) :
    ({ s with inBuf := Memory.write s.inBuf a bs } : State).Invariant :=
  { h with
    inCanonical := Memory.canonical_write h.inCanonical a bs
    inBound := fun _ => Memory.lt_of_get_write_isSome h.inBound hn }

theorem State.Invariant.setPort (h : s.Invariant) (p : Nat) {q : Port}
    (hq : q.hasRead = false → q.lastRead = 0) : (s.setPort p q).Invariant :=
  { h with
    portCount := List.length_set.trans h.portCount
    quietPort := fun r hr => by
      rcases List.mem_or_eq_of_mem_set hr with hr | rfl
      · exact h.quietPort r hr
      · exact hq }

/-- The clause `quietPort`, of a port by its index; it holds of an index that names no port too. -/
theorem State.Invariant.port_quiet (h : s.Invariant) (p : Nat) :
    (s.port p).hasRead = false → (s.port p).lastRead = 0 := by
  by_cases hp : p < s.ports.length
  · rw [State.port_of_getElem s (List.getElem?_eq_getElem hp)]
    exact h.quietPort _ (List.getElem_mem hp)
  · rw [State.port, List.getD_eq_default _ _ (by omega)]
    exact fun _ => rfl

theorem State.Invariant.respond (h : s.Invariant) (r : Response) : (s.respond r).Invariant :=
  h.of_agrees {}

theorem State.Invariant.recordFault (h : s.Invariant) (f : ModelFault) : (s.recordFault f).Invariant :=
  h.of_agrees {}

theorem State.Invariant.noteRead (h : s.Invariant) (b : Bool) : (s.noteRead b).Invariant :=
  h.of_agrees (by constructor <;> simp)

theorem State.Invariant.readIn (h : s.Invariant) : s.readIn.Invariant := h.noteRead _

theorem State.Invariant.setCrc (h : s.Invariant) (c : Half) : (s.setCrc c).Invariant :=
  h.of_agrees {}

theorem State.Invariant.setLrcSum (h : s.Invariant) (b : Byte) : (s.setLrcSum b).Invariant :=
  h.of_agrees {}

theorem State.Invariant.noteOverlap (h : s.Invariant) (p : Nat) : (s.noteOverlap p).Invariant := by
  rcases s.noteOverlap_cases p with e | e <;> rw [e]
  · exact h
  · exact h.recordFault _

theorem State.Invariant.grant (h : s.Invariant) (p : Nat) : (s.grant p).Invariant :=
  h.setPort p (h.port_quiet p)

theorem State.Invariant.answerDraw (h : s.Invariant) : s.answerDraw.Invariant :=
  h.of_agrees {}

theorem State.Invariant.answerUnless (h : s.Invariant) (pending : Bool) (v : Word) :
    (s.answerUnless pending v).Invariant := by
  cases pending
  · exact h.respond _
  · exact h.answerDraw

theorem State.Invariant.answerWord (h : s.Invariant) (m : Memory) (k : Nat) :
    (s.answerWord m k).Invariant :=
  (h.noteRead _).respond _

theorem State.Invariant.unlessBusy (h : s.Invariant) (ht : t.Invariant) : (s.unlessBusy t).Invariant := by
  unfold State.unlessBusy
  split
  · exact h.of_agrees {}
  · exact ht

/-! ### Host accesses -/

theorem State.Invariant.readReg (h : s.Invariant) (r : Reg) : (s.readReg r).Invariant := by
  cases r with
  | cmd | status | saddr | fcode | len | timeHi | params | tickhz | baud | silent => exact h.respond _
  | outLen | crc | lrc | pstat | lastReadLo | lastReadHi => exact h.answerUnless _ _
  | timeLo => exact h.of_agrees {}
  | inWord k => exact h.answerWord _ k
  | outWord k =>
    simp only [State.readReg]
    split
    · exact h.answerDraw
    · exact h.answerWord _ k

/-- A write keeps the invariant when the IN word it may reach lies inside BUF_BYTES. -/
theorem State.Invariant.writeReg (h : s.Invariant) (r : Reg) (v : Word)
    (hfit : ∀ k, r = .inWord k → 4 * k + 4 ≤ s.params.bufBytes) : (s.writeReg r v).Invariant := by
  cases r with
  | cmd => exact h.unlessBusy (h.accept v)
  | status => exact h.of_agrees {}
  | saddr | fcode | len => exact h.unlessBusy (h.of_agrees {})
  | baud p => exact h.unlessBusy (h.setPort p (h.port_quiet p))
  | inWord k => exact h.unlessBusy (h.writeIn (hfit k rfl))
  | outLen | crc | lrc | timeLo | timeHi | params | tickhz | silent | pstat | lastReadLo | lastReadHi
    | outWord => exact h

/-! ### Commands, events and steps -/

theorem CommandEffect.keeps_invariant {i : Instr} (c : CommandEffect s i t) (h : s.Invariant) :
    t.Invariant := by
  obtain ⟨-, -, h16, -⟩ := h.legal
  cases c with
  | hold => exact h
  | fail => exact h.complete _
  | failArgs => exact h.discard _
  | failFrame => exact h.readIn.discard _
  | crc => exact (h.setCrc _).complete _
  | lrc => exact (h.setLrcSum _).complete _
  | crcBuf hn => exact ((h.readIn.setCrc _).putOut (by simp; omega)).complete _
  | lrcBuf hn => exact ((h.readIn.setLrcSum _).putOut (by simp; omega)).complete _
  | frame _ hn => exact (h.readIn.putOut (by simpa using hn)).complete _
  | grant => exact ((h.noteOverlap _).grant _).complete _
  | stamp => exact (h.setPort _ (by simp)).complete _

theorem EventEffect.keeps_invariant {e : Event} (c : EventEffect s e t) (h : s.Invariant) :
    t.Invariant := by
  cases c with
  | held | noCommand | notAsserted => exact h
  | notTaken => exact h.respond _
  | read => exact h.readReg _
  | write _ _ hr =>
    exact (h.writeReg _ _ fun _ hk => select_inWord_fits h.legal (hk ▸ hr)).respond _
  | busError => exact (h.recordFault _).respond _
  | command _ _ hx => exact (exec_effect hx).keeps_invariant h
  | illegal => exact h.complete _
  | tick | assert => exact h.of_agrees {}
  | released => exact h.released

/-- Settles O58: a step is one event on the state less that event, and each effect an event can have keeps the
invariant. -/
theorem everyStepKeepsTheInvariant : Obligations.EveryStepKeepsTheInvariant := by
  intro s t h hs
  obtain ⟨u, e, hu, es, rfl⟩ := step_is_event s
  rw [hu] at hs
  exact (handle_effect hs).keeps_invariant (h.of_agrees {})

end Sys2Proof.Machine

/-! # The register window

A register's offset leads to that register and to no other (20_memory R61), and an access of 32 bits at it is a read or a
write of that register. -/

namespace Sys2Proof.Machine

variable {s : State}

/-! ### The register map -/

theorem offset_of_globalReg {off : Nat} {r : Reg} (h : globalReg off = some r) : r.offset = off := by
  unfold globalReg at h
  split at h <;> cases h <;> rfl

theorem offset_of_portReg {p sub : Nat} {r : Reg} (h : portReg p sub = some r) :
    r.offset = 0x100 + 0x20 * p + sub := by
  unfold portReg at h
  split at h <;> cases h <;> rfl

/-- The map gives a register at its own offset only. -/
theorem offset_of_regAt {q : Params} {off : Nat} {r : Reg} (h4 : off % 4 = 0) (h : regAt q off = some r) :
    r.offset = off := by
  unfold regAt at h
  split_ifs at h
  · exact offset_of_globalReg h
  · rw [offset_of_portReg h]; omega
  · cases h; simp only [Reg.offset]; omega
  · cases h; simp only [Reg.offset]; omega

/-- Inside the 0x20 bytes of a port that exists the map is `portReg`. -/
theorem regAt_port {q : Params} {p sub : Nat} (hq : q.Legal) (hp : p < q.numPorts) (hsub : sub < 0x20) :
    regAt q (0x100 + 0x20 * p + sub) = portReg p sub := by
  obtain ⟨-, -, -, -, -, h16, -⟩ := hq
  have hport : (0x100 + 0x20 * p + sub - 0x100) / 0x20 = p := by omega
  have hoff : (0x100 + 0x20 * p + sub - 0x100) % 0x20 = sub := by omega
  rw [regAt, if_neg (by omega), if_pos (by omega), hport, hoff, if_pos hp]

theorem regAt_inWord {q : Params} {k : Nat} (hq : q.Legal) (hk : k < q.bufBytes / 4) :
    regAt q (0x1000 + 4 * k) = some (.inWord k) := by
  obtain ⟨-, h4, -, hmax, -⟩ := hq
  have hword : (0x1000 + 4 * k - 0x1000) / 4 = k := by omega
  rw [regAt, if_neg (by omega), if_neg (by omega), if_neg (by omega), if_pos (by omega), if_pos (by omega), hword]

theorem regAt_outWord {q : Params} {k : Nat} (hq : q.Legal) (hk : k < q.bufBytes / 4) :
    regAt q (0x2000 + 4 * k) = some (.outWord k) := by
  obtain ⟨-, h4, -, hmax, -⟩ := hq
  have hword : (0x2000 + 4 * k - 0x2000) / 4 = k := by omega
  rw [regAt, if_neg (by omega), if_neg (by omega), if_neg (by omega), if_neg (by omega), if_pos (by omega),
    if_pos (by omega), hword]

/-- The map gives every register that exists, at its offset. -/
theorem regAt_offset {q : Params} {r : Reg} (hq : q.Legal) (hr : r.Exists q) : regAt q r.offset = some r := by
  cases r with
  | cmd | status | saddr | fcode | len | outLen | crc | lrc | timeLo | timeHi | params | tickhz => rfl
  | baud p | silent p | pstat p | lastReadLo p | lastReadHi p => exact regAt_port hq hr (by decide)
  | inWord k => exact regAt_inWord hq hr
  | outWord k => exact regAt_outWord hq hr

theorem Reg.offset_mod_four (r : Reg) : r.offset % 4 = 0 := by
  cases r <;> simp only [Reg.offset] <;> omega

theorem Reg.offset_lt {q : Params} {r : Reg} (hq : q.Legal) (hr : r.Exists q) : r.offset < 0x3000 := by
  obtain ⟨-, -, -, hmax, -, h16, -⟩ := hq
  cases r <;> simp only [Reg.offset, Reg.Exists] at hr ⊢ <;> omega

/-! ### Accesses to a register that exists -/

theorem step_read_offset {r : Reg} (h : s.inReset = false) (hl : s.params.Legal) (hr : r.Exists s.params) :
    step (s.sees (.hostRead (s.busAddr r.offset) 4)) = .next (s.readReg r) :=
  handle_read h (Reg.offset_lt hl hr) r.offset_mod_four (regAt_offset hl hr)

theorem step_write_offset {r : Reg} (h : s.inReset = false) (hl : s.params.Legal) (hr : r.Exists s.params)
    (v : Word) :
    step (s.sees (.hostWrite (s.busAddr r.offset) 4 v)) = .next ((s.writeReg r v).respond .written) :=
  handle_write h (Reg.offset_lt hl hr) r.offset_mod_four (regAt_offset hl hr)

/-- The access that reaches register `r` is one of 32 bits at the offset of `r`. -/
theorem access_of_select {addr width : Nat} {r : Reg} (hw : s.inWindow addr = true)
    (h : s.select addr width = some r) : addr = s.busAddr r.offset ∧ width = 4 := by
  have hbase : s.params.base ≤ addr := by
    simp only [State.inWindow, Bool.and_eq_true, decide_eq_true_eq] at hw
    exact hw.1
  unfold State.select at h
  split at h
  · rename_i hadm
    refine ⟨?_, hadm.1⟩
    rw [State.busAddr, offset_of_regAt hadm.2 h]
    omega
  · cases h

/-! ### Writes while BUSY -/

theorem State.unlessBusy_of_busy (t : State) (h : s.busy = true) : s.unlessBusy t = { s with ovr := true } := by
  simp [State.unlessBusy, h]

theorem State.unlessBusy_of_idle (t : State) (h : s.busy = false) : s.unlessBusy t = t := by
  simp [State.unlessBusy, h]

theorem writeReg_of_busy {r : Reg} (v : Word) (hb : s.busy = true) (hr : r.isWritable = true) :
    s.writeReg r v = { s with ovr := true } := by
  cases r with
  | cmd | saddr | fcode | len | baud | inWord => exact s.unlessBusy_of_busy _ hb
  | status | outLen | crc | lrc | timeLo | timeHi | params | tickhz | silent | pstat | lastReadLo | lastReadHi
    | outWord => cases hr

/-- Settles O48: an access at a register's offset reaches it, and a writable one drops the write while BUSY = 1. -/
theorem writesWhileBusyAreDropped : Obligations.WritesWhileBusyAreDropped := by
  intro s r v ⟨hreset, hbusy⟩ hlegal hexists hwritable
  rw [step_write_offset hreset hlegal hexists, writeReg_of_busy v hbusy hwritable]
  rfl

end Sys2Proof.Machine

/-! # What each command writes

The frame of the twelve commands (10_state R31 to R33, R38, R44, R48), read off the effects of Laws/Step.lean: one
equation for the fields that no command writes, and one lemma for each of CRC, LRCSUM, OUT, the ports and FAULTS. -/

namespace Sys2Proof.Machine

variable {s t : State} {i : Instr}

/-! ### The named updates -/

/-- A read of a buffer writes FAULTS and the count of draws, and no other field. -/
theorem State.noteRead_frame (s : State) (b : Bool) :
    s.noteRead b = { s with faults := (s.noteRead b).faults, draws := (s.noteRead b).draws } := by
  cases b <;> rfl

theorem State.readIn_frame (s : State) :
    s.readIn = { s with faults := s.readIn.faults, draws := s.readIn.draws } :=
  s.noteRead_frame _

/-- The check for an exchange in flight writes FAULTS and no other field. -/
theorem State.noteOverlap_frame (s : State) (p : Nat) :
    s.noteOverlap p = { s with faults := (s.noteOverlap p).faults } := by
  rcases s.noteOverlap_cases p with h | h
  · rw [h]
  · rw [h]; rfl

@[simp] theorem State.noteOverlap_crc (s : State) (p : Nat) : (s.noteOverlap p).crc = s.crc :=
  (congrArg State.crc (s.noteOverlap_frame p) :)
@[simp] theorem State.noteOverlap_lrcSum (s : State) (p : Nat) : (s.noteOverlap p).lrcSum = s.lrcSum :=
  (congrArg State.lrcSum (s.noteOverlap_frame p) :)
@[simp] theorem State.noteOverlap_outLen (s : State) (p : Nat) : (s.noteOverlap p).outLen = s.outLen :=
  (congrArg State.outLen (s.noteOverlap_frame p) :)
@[simp] theorem State.noteOverlap_outBuf (s : State) (p : Nat) : (s.noteOverlap p).outBuf = s.outBuf :=
  (congrArg State.outBuf (s.noteOverlap_frame p) :)
@[simp] theorem State.noteOverlap_draws (s : State) (p : Nat) : (s.noteOverlap p).draws = s.draws :=
  (congrArg State.draws (s.noteOverlap_frame p) :)
@[simp] theorem State.noteOverlap_ports (s : State) (p : Nat) : (s.noteOverlap p).ports = s.ports :=
  (congrArg State.ports (s.noteOverlap_frame p) :)
@[simp] theorem State.noteOverlap_port (s : State) (p r : Nat) : (s.noteOverlap p).port r = s.port r :=
  State.port_congr s (s.noteOverlap_ports p) r

/-! ### The fields no command writes -/

/-- R48: `params`, OVR, SADDR, FCODE, LEN, TIME, TIME_HI_SHADOW, CUR_CMD, IN, the reset input, and the model's own
`response` and `schedule` are not among the fields a command can write. -/
theorem CommandEffect.frame_eq (c : CommandEffect s i t) :
    t = { s with
      busy := t.busy, done := t.done, err := t.err, outLen := t.outLen, crc := t.crc, lrcSum := t.lrcSum,
      outBuf := t.outBuf, ports := t.ports, faults := t.faults, draws := t.draws } := by
  cases c with
  | hold | fail | failArgs | crc | lrc | stamp => rfl
  | failFrame | crcBuf | lrcBuf | frame => rw [s.readIn_frame]; rfl
  | grant => rw [s.noteOverlap_frame]; rfl

/-- The effect of a command completes it, or is that of a hold and writes nothing (60_exceptions R236). -/
theorem CommandEffect.completes_or_holds (c : CommandEffect s i t) :
    (t.busy = false ∧ t.done = true) ∨ t = s := by
  cases c with
  | hold => exact .inr rfl
  | fail | failArgs | failFrame | crc | lrc | crcBuf | lrcBuf | frame | grant | stamp => exact .inl ⟨rfl, rfl⟩

/-! ### The accumulators and OUT -/

theorem CommandEffect.crc_eq (c : CommandEffect s i t) (hi : writesCrc i = false) : t.crc = s.crc := by
  cases c with
  | crc hw => rw [hw] at hi; cases hi
  | crcBuf => cases hi
  | hold | fail | failArgs | failFrame | lrc | lrcBuf | frame | grant | stamp => simp

theorem CommandEffect.lrcSum_eq (c : CommandEffect s i t) (hi : writesLrc i = false) : t.lrcSum = s.lrcSum := by
  cases c with
  | lrc hw => rw [hw] at hi; cases hi
  | lrcBuf => cases hi
  | hold | fail | failArgs | failFrame | crc | crcBuf | frame | grant | stamp => simp

theorem CommandEffect.out_eq (c : CommandEffect s i t) (hi : writesOut i = false) :
    t.outBuf = s.outBuf ∧ t.outLen = s.outLen ∧ t.draws = s.draws := by
  cases c with
  | failArgs hw | failFrame hw | frame hw => rw [hw] at hi; cases hi
  | crcBuf | lrcBuf => cases hi
  | hold | fail | crc | lrc | grant | stamp => simp

/-- A command leaves OUT alone, or writes a string that fits at its start and OUT_LEN to match (10_state R31, R38). -/
theorem CommandEffect.outBuf_cases (c : CommandEffect s i t) (hl : s.params.Legal) :
    t.outBuf = s.outBuf ∨
    ∃ bs : List Byte, bs.length ≤ s.params.bufBytes ∧ t.outBuf = Memory.write s.outBuf 0 bs ∧
      t.outLen = BitVec.ofNat 32 bs.length := by
  obtain ⟨-, -, h16, -⟩ := hl
  cases c with
  | @crcBuf _ bs hn => exact .inr ⟨bs, by omega, by simp⟩
  | @lrcBuf _ bs hn => exact .inr ⟨bs, by omega, by simp⟩
  | @frame _ bs _ hn => exact .inr ⟨bs, hn, by simp⟩
  | hold | fail | failArgs | failFrame | crc | lrc | grant | stamp => exact .inl (by simp)

/-- Settles O39: OUT_LEN is the length of the string written, which a legal BUF_BYTES keeps from wrapping. -/
theorem outBeyondOutLenIsUnchanged : Obligations.OutBeyondOutLenIsUnchanged := by
  intro i s t hl hx a ha
  obtain hout | ⟨bs, hfit, hout, hlen⟩ := (exec_effect hx).outBuf_cases hl
  · rw [hout]
  · obtain ⟨-, -, -, hmax, -⟩ := hl
    have hlen : t.outLen.toNat = bs.length := by
      rw [hlen, BitVec.toNat_ofNat, Nat.mod_eq_of_lt (by omega)]
    rw [hout, Memory.get_write, if_neg (by omega)]

/-! ### The ports and FAULTS -/

/-- A part of the port's state that an update of one port keeps is the same for every port. -/
theorem State.port_setPort_part {α : Type} (f : Port → α) (s : State) {p : Nat} {q : Port}
    (hq : f q = f (s.port p)) (r : Nat) : f ((s.setPort p q).port r) = f (s.port r) := by
  by_cases hr : p = r
  · subst hr
    by_cases hp : p < s.ports.length
    · rw [s.port_setPort_same q hp, hq]
    · rw [s.port_setPort_absent q (by omega)]
  · rw [s.port_setPort_other q hr]

/-- The ports change only by a grant or by the stamp of RX_DONE (42_timing_gate R205, R210). -/
theorem CommandEffect.ports_cases (c : CommandEffect s i t) :
    t.ports = s.ports ∨
    (∃ p, i = .gateTx p ∧ t.ports = (s.setPort p { s.port p with inflight := true }).ports) ∨
    (∃ p, i = .rxDone p ∧ t.ports =
      (s.setPort p { s.port p with lastRead := s.time, hasRead := true, inflight := false }).ports) := by
  cases c with
  | grant => exact .inr (.inl ⟨_, rfl, by simp⟩)
  | stamp => exact .inr (.inr ⟨_, rfl, rfl⟩)
  | hold | fail | failArgs | failFrame | crc | lrc | crcBuf | lrcBuf | frame => exact .inl (by simp)

theorem CommandEffect.port_eq (c : CommandEffect s i t) {p : Nat} (hp : portOf i ≠ some p) :
    t.port p = s.port p := by
  obtain h | ⟨r, rfl, h⟩ | ⟨r, rfl, h⟩ := c.ports_cases
  · exact s.port_congr h p
  · exact (State.port_congr _ h p).trans (s.port_setPort_other _ fun hr => hp (congrArg some hr))
  · exact (State.port_congr _ h p).trans (s.port_setPort_other _ fun hr => hp (congrArg some hr))

theorem CommandEffect.baud_eq (c : CommandEffect s i t) (p : Nat) : (t.port p).baud = (s.port p).baud := by
  obtain h | ⟨r, rfl, h⟩ | ⟨r, rfl, h⟩ := c.ports_cases
  · rw [s.port_congr h]
  · rw [State.port_congr _ h]; exact s.port_setPort_part Port.baud (by rfl) p
  · rw [State.port_congr _ h]; exact s.port_setPort_part Port.baud (by rfl) p

theorem CommandEffect.read_eq (c : CommandEffect s i t) {p : Nat} (hi : i ≠ .rxDone p) :
    (t.port p).lastRead = (s.port p).lastRead ∧ (t.port p).hasRead = (s.port p).hasRead := by
  obtain h | ⟨r, rfl, h⟩ | ⟨r, rfl, h⟩ := c.ports_cases
  · rw [s.port_congr h]; exact ⟨rfl, rfl⟩
  · rw [State.port_congr _ h]
    exact ⟨s.port_setPort_part Port.lastRead (by rfl) p, s.port_setPort_part Port.hasRead (by rfl) p⟩
  · rw [State.port_congr _ h, s.port_setPort_other _ fun hr => hi (congrArg Instr.rxDone hr)]
    exact ⟨rfl, rfl⟩

/-- A command records UNDEF_READ or OVERLAP and nothing else, and at most one of them. -/
theorem CommandEffect.faults_cases (c : CommandEffect s i t) :
    t.faults = s.faults ∨ t.faults = s.faults.add .undefRead ∨ t.faults = s.faults.add .overlap := by
  have hread : s.readIn.faults = s.faults ∨ s.readIn.faults = s.faults.add .undefRead := by
    rw [State.readIn_faults]
    split
    · exact .inl rfl
    · exact .inr rfl
  cases c with
  | hold | fail | failArgs | crc | lrc | stamp => exact .inl rfl
  | failFrame | crcBuf | lrcBuf | frame => exact hread.imp_right .inl
  | @grant p =>
    rcases s.noteOverlap_cases p with h | h <;> rw [h]
    · exact .inl rfl
    · exact .inr (.inr rfl)

theorem CommandEffect.fault_eq (c : CommandEffect s i t) {f : ModelFault} (hu : f ≠ .undefRead)
    (ho : f ≠ .overlap) : t.faults.has f = s.faults.has f := by
  obtain h | h | h := c.faults_cases <;> rw [h]
  · exact FaultSet.has_add_other _ _ _ hu
  · exact FaultSet.has_add_other _ _ _ ho

/-- Settles O38, from the frame equation of a command's effect and the lemma of each field that some command writes. -/
theorem commandsWriteOnlyTheirOwnState : Obligations.CommandsWriteOnlyTheirOwnState := by
  intro i s t hx
  have c := exec_effect hx
  refine ⟨?_, ?_, ?_, ?_, ?_, ?_, ?_, ?_, ?_, ?_, ?_, ?_, c.crc_eq, c.lrcSum_eq, c.out_eq, fun _ => c.port_eq,
    c.baud_eq, fun _ => c.read_eq, fun _ => c.fault_eq⟩
  all_goals rw [c.frame_eq]

end Sys2Proof.Machine

/-! # A buffer operand with undefined bytes

A command that reads undefined bytes of IN does what it does on an IN that holds their free values, and records
UNDEF_READ besides (10_state R46; 93 U6; log 5). -/

namespace Sys2Proof.Machine

variable {s : State} {bs : List Byte}

/-- `s` with `bs` as the whole of IN. -/
def State.withIn (s : State) (bs : List Byte) : State := { s with inBuf := Memory.write [] 0 bs }

/-- `t`, but for IN as in `s` and the record of a read of undefined bytes in `s`. -/
def State.afterUndefRead (s t : State) : State :=
  { t with inBuf := s.inBuf, faults := s.faults.add .undefRead, draws := s.draws + 1 }

theorem State.inputIs_withIn (hn : bs.length = s.len.toNat) : (s.withIn bs).InputIs bs :=
  ⟨hn.symm, fun a ha => by simp [State.withIn, Memory.get_write, ha]⟩

/-- IN[0..LEN) as a command reads it, byte by byte. -/
theorem State.inBytes_eq_of_getD (hn : bs.length = s.len.toNat)
    (hbs : ∀ a, a < bs.length →
      bs[a]? = some ((Memory.get s.inBuf a).getD (Config.undefinedByte s.draws a))) : s.inBytes = bs := by
  have hlen : s.inBytes.length = bs.length := (length_inBytes s).trans hn.symm
  apply List.ext_getElem?
  intro a
  by_cases ha : a < bs.length
  · rw [hbs a ha, State.inBytes, State.inCount, ← hn, Memory.getElem?_read _ _ _ _ _ ha, Nat.zero_add]
  · rw [List.getElem?_eq_none (by omega), List.getElem?_eq_none (by omega)]

theorem State.inDefined_of_get_none (h : ∃ a, a < s.len.toNat ∧ Memory.get s.inBuf a = none) :
    s.inDefined = false := by
  obtain ⟨a, ha, hnone⟩ := h
  apply Bool.eq_false_of_not_eq_true
  intro hdef
  have hsome := (Memory.defined_iff _ _ _).1 hdef a ha
  rw [Nat.zero_add, hnone] at hsome
  cases hsome

section
variable (hread : s.readIn = s.afterUndefRead s) (hread' : (s.withIn bs).readIn = s.withIn bs)
include hread hread'

theorem State.embed_afterUndefRead (hargs : s.checkArgs = none) (w : List Byte) :
    s.embed w = s.afterUndefRead ((s.withIn bs).embed w) := by
  have hargs' : (s.withIn bs).checkArgs = none := hargs
  have hbuf : (s.withIn bs).params = s.params := rfl
  simp only [State.embed, hargs, hargs', hread, hread', hbuf]
  split <;> rfl

theorem State.extract_afterUndefRead (hargs : s.checkArgs = none) (r : Except ErrCode (List Byte)) :
    s.extract r = s.afterUndefRead ((s.withIn bs).extract r) := by
  have hargs' : (s.withIn bs).checkArgs = none := hargs
  simp only [State.extract, hargs, hargs', hread, hread']
  cases r <;> rfl

end

/-- Settles O30: on defined bytes the reading of IN records nothing, on undefined ones UNDEF_READ and a draw, and the
rest of each command depends on IN through IN[0..LEN) alone. -/
theorem undefinedInputBytesAreFreeValues : Obligations.UndefinedInputBytesAreFreeValues := by
  intro s t i bs hi hlen hargs hn hbs hundef hx
  have hin : s.inBytes = bs := State.inBytes_eq_of_getD hn hbs
  have hread : s.readIn = s.afterUndefRead s := by
    rw [State.readIn, State.inDefined_of_get_none hundef]; rfl
  have hin' : (s.withIn bs).inBytes = bs := (State.inputIs_withIn hn).inBytes_eq
  have hread' : (s.withIn bs).readIn = s.withIn bs := (State.inputIs_withIn hn).readIn_eq
  have hlen' : (s.withIn bs).lenTooLong = false := hlen
  change exec i (s.withIn bs) = .next t at hx
  change exec i s = .next (s.afterUndefRead t)
  cases i with
  | crcBuf =>
    simp only [exec, execCrcBuf, hlen', hin', hread'] at hx
    cases hx
    simp only [exec, execCrcBuf, hlen, hin, hread]
    rfl
  | lrcBuf =>
    simp only [exec, execLrcBuf, hlen', hin', hread'] at hx
    cases hx
    simp only [exec, execLrcBuf, hlen, hin, hread]
    rfl
  | embedRtu | embedAscii =>
    have hargs : s.checkArgs = none := by simpa using hargs
    cases hx
    simp only [exec, execEmbedRtu, execEmbedAscii]
    rw [State.embed_afterUndefRead hread hread' hargs, hin, hin']
    rfl
  | extractRtu | extractAscii =>
    have hargs : s.checkArgs = none := by simpa using hargs
    cases hx
    simp only [exec, execExtractRtu, execExtractAscii]
    rw [State.extract_afterUndefRead hread hread' hargs, hin, hin']
    rfl
  | crcInit | crcFeed | lrcInit | lrcFeed | gateTx | rxDone => cases hi

end Sys2Proof.Machine

/-! # BUSY and TIME under every event

What reads and writes of registers can change, and from it which events move BUSY (10_state R23) and TIME (R34). -/

namespace Sys2Proof.Machine

variable {s t : State} {e : Event}

/-! ### Reads and writes of registers -/

/-- A read writes TIME_HI_SHADOW, FAULTS and the model's own fields at most. -/
theorem State.readReg_frame (s : State) (r : Reg) :
    s.readReg r = { s with
      timeHiShadow := (s.readReg r).timeHiShadow, faults := (s.readReg r).faults, draws := (s.readReg r).draws,
      response := (s.readReg r).response } := by
  cases r with
  | cmd | status | saddr | fcode | len | timeLo | timeHi | params | tickhz | baud | silent => rfl
  | outLen | crc | lrc | pstat | lastReadLo | lastReadHi =>
    simp only [State.readReg, State.answerUnless]
    split <;> rfl
  | inWord k =>
    simp only [State.readReg, State.answerWord]
    rw [s.noteRead_frame]; rfl
  | outWord k =>
    simp only [State.readReg, State.answerWord]
    split
    · rfl
    · rw [s.noteRead_frame]; rfl

/-- A write reaches neither the results nor TIME nor the model's own fields. -/
theorem State.writeReg_frame (s : State) (r : Reg) (v : Word) :
    s.writeReg r v = { s with
      busy := (s.writeReg r v).busy, done := (s.writeReg r v).done, ovr := (s.writeReg r v).ovr,
      err := (s.writeReg r v).err, saddr := (s.writeReg r v).saddr, fcode := (s.writeReg r v).fcode,
      len := (s.writeReg r v).len, curCmd := (s.writeReg r v).curCmd, inBuf := (s.writeReg r v).inBuf,
      ports := (s.writeReg r v).ports } := by
  cases r with
  | cmd | saddr | fcode | len | baud | inWord =>
    simp only [State.writeReg, State.unlessBusy]
    split <;> rfl
  | status | outLen | crc | lrc | timeLo | timeHi | params | tickhz | silent | pstat | lastReadLo | lastReadHi
    | outWord => rfl

/-- Only a write to CMD starts or replaces a command. -/
theorem State.writeReg_keeps_command (s : State) {r : Reg} (v : Word) (hr : r ≠ .cmd) :
    (s.writeReg r v).busy = s.busy ∧ (s.writeReg r v).curCmd = s.curCmd := by
  cases r with
  | cmd => exact absurd rfl hr
  | saddr | fcode | len | baud | inWord =>
    simp only [State.writeReg, State.unlessBusy]
    split <;> exact ⟨rfl, rfl⟩
  | status | outLen | crc | lrc | timeLo | timeHi | params | tickhz | silent | pstat | lastReadLo | lastReadHi
    | outWord => exact ⟨rfl, rfl⟩

/-- A write accepts a command, or leaves the pending command and BUSY alone. -/
theorem State.writeReg_accepts_or_keeps (s : State) (r : Reg) (v : Word) :
    (r = .cmd ∧ s.busy = false ∧ s.writeReg r v = s.accept v) ∨
    ((s.writeReg r v).busy = s.busy ∧ (s.writeReg r v).curCmd = s.curCmd) := by
  by_cases hr : r = .cmd
  · subst hr
    cases hb : s.busy with
    | false => exact .inl ⟨rfl, rfl, s.unlessBusy_of_idle _ hb⟩
    | true => rw [writeReg_of_busy v hb rfl]; exact .inr ⟨hb, rfl⟩
  · exact .inr (s.writeReg_keeps_command v hr)

/-! ### BUSY -/

/-- What an event does to BUSY and CUR_CMD. -/
inductive BusyEffect (s : State) : Event → State → Prop where
  | keeps {e : Event} {t : State} (hb : t.busy = s.busy) (hc : t.curCmd = s.curCmd) : BusyEffect s e t
  | accepts (w : Word) (hb : s.busy = false) :
      BusyEffect s (.hostWrite (s.busAddr 0x000) 4 w) ((s.accept w).respond .written)
  | completes {t : State} (hb : t.busy = false) (hd : t.done = true) : BusyEffect s .engine t
  | released (h : s.inReset = true) : BusyEffect s .resetRelease s.released

theorem EventEffect.busyEffect (c : EventEffect s e t) : BusyEffect s e t := by
  cases c with
  | held | notTaken | busError | noCommand | tick | assert | notAsserted => exact .keeps rfl rfl
  | @read _ _ r => exact .keeps (by rw [s.readReg_frame]) (by rw [s.readReg_frame])
  | @write addr width v r h hw hr =>
    obtain ⟨rfl, hb, hacc⟩ | ⟨hb, hc⟩ := s.writeReg_accepts_or_keeps r v
    · obtain ⟨rfl, rfl⟩ := access_of_select hw hr
      rw [hacc]
      exact .accepts v hb
    · exact .keeps hb hc
  | command h hd hx =>
    obtain ⟨hb, hd⟩ | rfl := (exec_effect hx).completes_or_holds
    · exact .completes hb hd
    · exact .keeps rfl rfl
  | illegal => exact .completes rfl rfl
  | released h => exact .released h

/-- Settles O8, by the cases of what an event does to BUSY. -/
theorem busyIsSetByAcceptClearedByCompletion : Obligations.BusyIsSetByAcceptClearedByCompletion := by
  intro s t e hs
  rw [step_sees] at hs
  cases (handle_effect hs).busyEffect with
  | keeps hb hc =>
    exact ⟨fun h0 h1 => by simp [hb, h0] at h1, fun h1 h0 => by simp [hb, h1] at h0, fun _ _ => hc⟩
  | accepts w hb =>
    exact ⟨fun _ _ => ⟨w, rfl, rfl, rfl, rfl⟩, fun h1 _ => by simp [hb] at h1, fun h1 _ => by simp [hb] at h1⟩
  | completes hb hd =>
    exact ⟨fun _ h1 => by simp [hb] at h1, fun _ _ => .inl ⟨rfl, hd⟩, fun _ h1 => by simp [hb] at h1⟩
  | released h =>
    exact ⟨fun _ h1 => (nomatch h1), fun _ _ => .inr ⟨rfl, h⟩, fun _ h1 => (nomatch h1)⟩

/-! ### TIME -/

theorem EventEffect.time_eq (c : EventEffect s e t) (ht : e ≠ .tick) (hr : e ≠ .resetRelease) :
    t.time = s.time := by
  cases c with
  | held | notTaken | busError | illegal | noCommand | assert => rfl
  | read => rw [s.readReg_frame]
  | write => rw [s.writeReg_frame]; rfl
  | command _ _ hx => rw [(exec_effect hx).frame_eq]
  | tick => exact absurd rfl ht
  | released | notAsserted => exact absurd rfl hr

/-- A tick with reset released. -/
theorem handle_tick (h : s.inReset = false) : s.handle .tick = .next s.tick := by
  simp [State.handle, h]

/-- Settles O54: of what an event can do, only a tick and the release of reset write TIME. -/
theorem timeCountsOnlyTicks : Obligations.TimeCountsOnlyTicks :=
  ⟨fun _ h => handle_tick h, fun _ _ _ hs => (handle_effect hs).time_eq⟩

end Sys2Proof.Machine

/-! # What a read returns

The reads of STATUS, of the operand registers, of the read-only registers and of TIME (10_state R20 to R43). A read of
a register is `State.readReg`; what is left is to take the word it returns apart into its fields. -/

namespace Sys2Proof.Machine

variable {s : State}

/-! ### Words made of fields -/

/-- The word with value `x` at bit `k` and 0 in every other bit. -/
def fieldAt {w : Nat} (k : Nat) (x : BitVec w) : Word := x.setWidth 32 <<< k

theorem setWidth_eq_fieldAt {w : Nat} (x : BitVec w) : x.setWidth 32 = fieldAt 0 x :=
  (BitVec.shiftLeft_zero _).symm

theorem getLsbD_fieldAt {w : Nat} (k : Nat) (x : BitVec w) {i : Nat} (hi : i < 32) :
    (fieldAt k x).getLsbD i = (decide (k ≤ i) && x.getLsbD (i - k)) := by
  by_cases hk : k ≤ i
  · simp [fieldAt, hi, hk, Nat.not_lt.2 hk]
  · simp [fieldAt, hk, Nat.lt_of_not_le hk]

/-- The bits of a field hold its value. -/
theorem extract_fieldAt_same {w k : Nat} (x : BitVec w) (h : k + w ≤ 32) :
    (fieldAt k x).extractLsb' k w = x := by
  apply BitVec.eq_of_getLsbD_eq
  intro i hi
  rw [BitVec.getLsbD_extractLsb', getLsbD_fieldAt k x (by omega), Nat.add_sub_cancel_left]
  simp only [hi, Nat.le_add_right, decide_true, Bool.true_and]

/-- The bits outside a field are 0. -/
theorem extract_fieldAt_apart {w k a l : Nat} (x : BitVec w) (hin : a + l ≤ 32) (h : k + w ≤ a ∨ a + l ≤ k) :
    (fieldAt k x).extractLsb' a l = 0 := by
  apply BitVec.eq_of_getLsbD_eq
  intro i hi
  rw [BitVec.getLsbD_extractLsb', getLsbD_fieldAt k x (by omega)]
  change _ = (0#l).getLsbD i
  rw [BitVec.getLsbD_zero]
  obtain h | h := h
  · rw [BitVec.getLsbD_of_ge x _ (by omega), Bool.and_false, Bool.and_false]
  · rw [decide_eq_false (by omega : ¬ k ≤ a + i), Bool.false_and, Bool.and_false]

/-! ### STATUS -/

theorem State.holding_iff (s : State) (p : Nat) : s.holding p = true ↔
    (s.port p).hasRead = true ∧ (s.elapsed p).toNat < (s.silent p).toNat := by
  simp [State.holding]

theorem State.noSuchPort_eq_false_iff (s : State) (p : Nat) :
    s.noSuchPort p = false ↔ p < s.params.numPorts := by
  simp [State.noSuchPort]

/-- WAIT, through the command that is pending. -/
theorem State.waiting_iff (s : State) : s.waiting = true ↔
    s.busy = true ∧ ∃ p, decode s.curCmd = .ok (.gateTx p) ∧ s.noSuchPort p = false ∧
      (s.port p).baud ≠ 0 ∧ s.holding p = true := by
  unfold State.waiting
  rw [Bool.and_eq_true]
  refine and_congr_right fun _ => ?_
  split
  · rename_i p hd
    simp [hd, and_assoc]
  · rename_i hd
    simpa using fun p hp => absurd hp (hd p)

/-- Settles O35, by the condition of the hold and the check of the port in the spec's terms. -/
theorem waitIsAHeldGateTx : Obligations.WaitIsAHeldGateTx := by
  intro s
  simp only [State.waiting_iff, State.noSuchPort_eq_false_iff, State.holding_iff]
  rfl

theorem State.statusWord_eq (s : State) : s.statusWord =
    fieldAt 0 (BitVec.ofBool s.busy) ||| fieldAt 1 (BitVec.ofBool s.done) |||
      fieldAt 2 (BitVec.ofBool s.ovr) ||| fieldAt 3 (BitVec.ofBool s.waiting) ||| fieldAt 8 s.err := by
  simp only [State.statusWord, bitOf, fieldAt, BitVec.shiftLeft_zero]

/-- Settles O50: the word is the fields of R22, side by side. -/
theorem statusReadHasTheFieldsInPlace : Obligations.StatusReadHasTheFieldsInPlace := by
  intro s h
  refine ⟨s.statusWord, handle_read (r := .status) h (by decide) rfl rfl, ?_⟩
  rw [s.statusWord_eq]
  simp [extract_or, BitVec.getLsbD_or, getLsbD_fieldAt, extract_fieldAt_same, extract_fieldAt_apart,
    -BitVec.getLsbD_eq_getElem]

/-! ### The operand registers -/

/-- A write that is dropped while BUSY has its effect when no command is pending. -/
theorem step_write_of_idle (h : s.Idle) {off : Nat} {r : Reg} {v : Word} (t : State) (ho : off < 0x3000)
    (h4 : off % 4 = 0) (hr : regAt s.params off = some r) (hw : s.writeReg r v = s.unlessBusy t) :
    step (s.sees (.hostWrite (s.busAddr off) 4 v)) = .next (t.respond .written) := by
  rw [step_sees, handle_write h.1 ho h4 hr, hw, s.unlessBusy_of_idle t h.2]

/-- A read of a register that exists, at its offset however written. -/
theorem step_read_at {r : Reg} {off : Nat} (h : s.inReset = false) (hl : s.params.Legal)
    (hr : r.Exists s.params) (ho : r.offset = off) :
    step (s.sees (.hostRead (s.busAddr off) 4)) = .next (s.readReg r) := by
  subst ho
  exact step_read_offset h hl hr

/-- Settles O45: with BUSY = 0 a write is not dropped, and BUSY plays no part in these reads. -/
theorem operandRegistersAreReadWrite : Obligations.OperandRegistersAreReadWrite := by
  constructor
  · intro s v h
    refine ⟨step_write_of_idle (r := .saddr) h { s with saddr := v } (by decide) rfl rfl rfl,
      step_write_of_idle (r := .fcode) h { s with fcode := v } (by decide) rfl rfl rfl,
      step_write_of_idle (r := .len) h { s with len := v } (by decide) rfl rfl rfl, ?_⟩
    intro p q hl hp hq
    have hr : Reg.Exists s.params (.baud p) := hp
    rw [← s.port_of_getElem hq]
    exact step_write_of_idle (r := .baud p) h (s.setPort p { s.port p with baud := v })
      (Reg.offset_lt hl hr) (Reg.offset_mod_four (.baud p)) (regAt_offset hl hr) rfl
  · intro s h
    refine ⟨handle_read (r := .saddr) h (by decide) rfl rfl, handle_read (r := .fcode) h (by decide) rfl rfl,
      handle_read (r := .len) h (by decide) rfl rfl, ?_⟩
    intro p q hl hp hq
    rw [← s.port_of_getElem hq]
    exact ⟨step_read_at (r := .baud p) h hl hp rfl,
      step_read_at (r := .silent p) h hl hp (by simp only [Reg.offset]; omega)⟩

/-! ### The read-only registers -/

theorem State.answerUnless_of_not_pending {pending : Bool} (s : State) (v : Word) (h : pending = false) :
    s.answerUnless pending v = s.answer v := by
  simp [State.answerUnless, h]

/-- No RX_DONE on port `p` is pending, so that R67 makes no draw of its registers. -/
theorem State.rxPending_eq_false {p : Nat} (h : s.busy = false ∨ decode s.curCmd ≠ .ok (.rxDone p)) :
    s.rxPending p = false := by
  unfold State.rxPending
  obtain h | h := h
  · rw [h, Bool.false_and]
  · split
    · rename_i q hd
      have hqp : q ≠ p := fun e => h (e ▸ hd)
      simp [hqp]
    · exact Bool.and_false _

theorem bitOf_eq (b : Bool) : bitOf b = if b then 1 else 0 := by
  cases b <;> rfl

theorem paramsWord_fields {p : Params} (hp : p.Legal) :
    ((paramsWord p).extractLsb' 0 5).toNat = p.numPorts ∧ (paramsWord p).extractLsb' 5 11 = 0 ∧
      ((paramsWord p).extractLsb' 16 16).toNat = p.bufBytes := by
  obtain ⟨-, -, -, hbuf, -, hports, -⟩ := hp
  have hword : paramsWord p = fieldAt 0 (BitVec.ofNat 5 p.numPorts) ||| fieldAt 16 (BitVec.ofNat 16 p.bufBytes) := by
    rw [← setWidth_eq_fieldAt]; rfl
  have hp5 : p.numPorts < 32 := by omega
  have hp16 : p.bufBytes < 65536 := by omega
  rw [hword]
  simp [extract_or, extract_fieldAt_same, extract_fieldAt_apart, hp5, hp16]

theorem lrcOfSum_eq_neg (b : Byte) : lrcOfSum b = -b := by
  rw [lrcOfSum, BitVec.neg_eq_not_add, ← BitVec.xor_allOnes]
  rfl

theorem State.lrcWord_fields (s : State) :
    (s.lrcWord.extractLsb' 0 8).toNat = (0x100 - s.lrcSum.toNat) % 256 ∧ s.lrcWord.extractLsb' 8 8 = s.lrcSum ∧
      s.lrcWord.extractLsb' 16 16 = 0 := by
  have hword : s.lrcWord = fieldAt 0 (-s.lrcSum) ||| fieldAt 8 s.lrcSum := by
    rw [← setWidth_eq_fieldAt, ← lrcOfSum_eq_neg]; rfl
  rw [hword]
  simp [extract_or, extract_fieldAt_same, extract_fieldAt_apart]

/-- Settles O51: where R67 makes no draw each register answers with its word, whose fields are those of its rule. -/
theorem readOnlyRegistersReadTheirFields : Obligations.ReadOnlyRegistersReadTheirFields := by
  intro s h hl
  refine ⟨handle_read (r := .cmd) h (by decide) rfl rfl,
    ⟨paramsWord s.params, handle_read (r := .params) h (by decide) rfl rfl, paramsWord_fields hl⟩,
    ⟨BitVec.ofNat 32 s.params.tickHz, handle_read (r := .tickhz) h (by decide) rfl rfl, ?_⟩, ?_, ?_⟩
  · obtain ⟨-, -, -, -, -, -, -, htick⟩ := hl
    rw [BitVec.toNat_ofNat, Nat.mod_eq_of_lt (by omega)]
  · intro p q hp hq hrx
    have hread (v : Word) : s.answerUnless (s.rxPending p) v = s.answer v :=
      s.answerUnless_of_not_pending v (State.rxPending_eq_false hrx)
    rw [← s.port_of_getElem hq]
    refine ⟨?_, ?_, ?_⟩
    · rw [step_read_at (r := .pstat p) h hl hp (by simp only [Reg.offset]; omega), State.readReg, hread, bitOf_eq]
      rfl
    · rw [step_read_at (r := .lastReadLo p) h hl hp (by simp only [Reg.offset]; omega), State.readReg, hread]
      rfl
    · rw [step_read_at (r := .lastReadHi p) h hl hp (by simp only [Reg.offset]; omega), State.readReg, hread]
      rfl
  · intro hb
    have hread (v : Word) : s.answerUnless s.busy v = s.answer v := s.answerUnless_of_not_pending v hb
    refine ⟨?_, ⟨fieldAt 0 s.crc, ?_, ?_, ?_⟩, ⟨s.lrcWord, ?_, s.lrcWord_fields⟩⟩
    · rw [step_read_at (r := .outLen) (off := 0x014) h hl trivial rfl, State.readReg, hread]; rfl
    · rw [step_read_at (r := .crc) (off := 0x018) h hl trivial rfl, State.readReg, hread, setWidth_eq_fieldAt]; rfl
    · exact extract_fieldAt_same _ (by decide)
    · exact extract_fieldAt_apart _ (by decide) (by decide)
    · rw [step_read_at (r := .lrc) (off := 0x01C) h hl trivial rfl, State.readReg, hread]; rfl

/-! ### TIME -/

theorem step_read_timeLo (h : s.inReset = false) :
    step (s.sees (.hostRead (s.busAddr 0x020) 4)) =
      .next { s with
        timeHiShadow := s.time.extractLsb' 32 32, response := .data (s.time.extractLsb' 0 32) } :=
  handle_read (r := .timeLo) h (by decide) rfl rfl

theorem step_read_timeHi (h : s.inReset = false) :
    step (s.sees (.hostRead (s.busAddr 0x024) 4)) = .next { s with response := .data s.timeHiShadow } :=
  handle_read (r := .timeHi) h (by decide) rfl rfl

theorem step_of_schedule {e : Event} {es : List Event} (h : s.schedule = e :: es) :
    step s = State.handle e { s with schedule := es } := by
  rw [step, h]

/-- A run begins with its first step. -/
theorem run_succ_of_step {t : State} (k : Nat) (h : step s = .next t) :
    Host.Core.run core (k + 1) s = Host.Core.run core k t := by
  have hcore : core.step s = .next t := h
  simp only [Host.Core.run, hcore]

/-- `n` ticks that come next add `n` to TIME and do nothing else. -/
theorem run_ticks (n k : Nat) (es : List Event) (h : s.inReset = false) :
    Host.Core.run core (k + n) { s with schedule := List.replicate n .tick ++ es } =
      Host.Core.run core k { s with time := s.time + BitVec.ofNat 64 n, schedule := es } := by
  induction n generalizing s with
  | zero => simp
  | succ n ih =>
    have hstep : step { s with schedule := List.replicate (n + 1) .tick ++ es } =
        .next { s.tick with schedule := List.replicate n .tick ++ es } :=
      handle_tick (s := { s with schedule := List.replicate n .tick ++ es }) h
    have htime : s.time + 1 + BitVec.ofNat 64 n = s.time + BitVec.ofNat 64 (n + 1) := by
      rw [BitVec.add_assoc, BitVec.add_comm 1, BitVec.ofNat_add]; rfl
    rw [← Nat.add_assoc, run_succ_of_step _ hstep, ih (s := s.tick) h, State.tick_time, htime]
    rfl

theorem append_halves (x : Stamp) : (x.extractLsb' 32 32 ++ x.extractLsb' 0 32 : Stamp) = x := by
  rw [BitVec.extractLsb'_append_extractLsb'_eq_extractLsb' (by rfl)]
  simp

/-- Settles O53: the ticks between the two reads leave TIME_HI_SHADOW as the first one latched it. -/
theorem timeReadsAreCoherent : Obligations.TimeReadsAreCoherent := by
  refine ⟨fun s h => ⟨step_read_timeLo h, step_read_timeHi h⟩, fun s n h hsched => ?_⟩
  have hlo := (step_of_schedule hsched).trans (step_read_timeLo (s := { s with schedule := _ }) h)
  have hticks := run_ticks (s := s.readReg .timeLo) n 1 [.hostRead (s.busAddr 0x024) 4] h
  have hhi := step_read_timeHi
    (s := { s.readReg .timeLo with time := s.time + BitVec.ofNat 64 n, schedule := [] }) h
  rw [Nat.add_comm 1 n] at hticks
  exact ⟨_, _, _, _, hlo, rfl, (run_succ_of_step _ hlo).trans (hticks.trans (run_succ_of_step 0 hhi)), rfl,
    append_halves _, rfl⟩

end Sys2Proof.Machine

/-! # The state after reset

10_state R47, and the base case of the invariant. -/

namespace Sys2Proof.Machine

/-- Settles O56, field by field; the ports are copies of one port. -/
theorem resetStateHasTheSpecsValues : Obligations.ResetStateHasTheSpecsValues := by
  have hport : silentOf Params.reference Port.initial.baud = 4011 := by decide
  refine ⟨State.reset, rfl, rfl, rfl, rfl, rfl, rfl, rfl, rfl, rfl, rfl, rfl, rfl, rfl, rfl, rfl, rfl, rfl, by decide,
    rfl, rfl, fun q hq => ?_, fun f => by cases f <;> rfl⟩
  rw [List.eq_of_mem_replicate hq]
  exact ⟨rfl, rfl, rfl, rfl, hport⟩

/-- Settles O57: the state after reset is the initial state of a block with legal parameters. -/
theorem resetStateMeetsTheInvariant : Obligations.ResetStateMeetsTheInvariant :=
  State.Invariant.initial (by decide : Params.reference.Legal)

end Sys2Proof.Machine

/-! # The window's accesses

The whole map of 20_memory R61, the accesses it refuses (R62, R66; log 8), the buffer words (R63), the writes that are
ignored (R65), the reads that are draws (R67) and the operands of a pending command (R71, R73). -/

namespace Sys2Proof.Machine

variable {s t : State}

/-! ### The map, from offsets to registers -/

theorem exists_of_globalReg {q : Params} {off : Nat} {r : Reg} (h : globalReg off = some r) : r.Exists q := by
  unfold globalReg at h
  split at h <;> cases h <;> trivial

theorem exists_of_portReg {q : Params} {p sub : Nat} {r : Reg} (hp : p < q.numPorts)
    (h : portReg p sub = some r) : r.Exists q := by
  unfold portReg at h
  split at h <;> cases h <;> exact hp

/-- The map gives only registers that exist. -/
theorem exists_of_regAt {q : Params} {off : Nat} {r : Reg} (hq : q.Legal) (h : regAt q off = some r) :
    r.Exists q := by
  obtain ⟨-, h4, -⟩ := hq
  unfold regAt at h
  split_ifs at h with _ _ hport
  · exact exists_of_globalReg h
  · exact exists_of_portReg hport h
  · cases h; simp only [Reg.Exists]; omega
  · cases h; simp only [Reg.Exists]; omega

/-- Settles O42: a register the map gives stands at that offset and exists, and one that exists is given at its own. -/
theorem registerMapIsTheTable : Obligations.RegisterMapIsTheTable := by
  intro q off r hq _ h4
  constructor
  · exact fun h => ⟨offset_of_regAt h4 h, exists_of_regAt hq h⟩
  · rintro ⟨rfl, hr⟩
    exact regAt_offset hq hr

/-! ### Refused accesses -/

/-- No register stands at an offset that R61 calls reserved. -/
theorem Reg.offset_not_reserved {q : Params} {r : Reg} (hq : q.Legal) (hr : r.Exists q) :
    ¬ ReservedOffset q r.offset := by
  obtain ⟨-, h4, -, hmax, -, h16, -⟩ := hq
  unfold ReservedOffset
  cases r <;> simp only [Reg.offset, Reg.Exists] at hr ⊢ <;> omega

/-- R62, R66: an access of a wrong width, alignment or offset reaches no register. -/
theorem select_eq_none {off width : Nat} (hl : s.params.Legal)
    (h : width ≠ 4 ∨ off % 4 ≠ 0 ∨ ReservedOffset s.params off) : s.select (s.busAddr off) width = none := by
  rw [select_busAddr]
  split
  · rename_i hadm
    obtain ⟨hwidth, h4⟩ := hadm
    obtain h | h | hres := h
    · exact absurd hwidth h
    · exact absurd h4 h
    · rw [Option.eq_none_iff_forall_ne_some]
      intro r hr
      have hoff : r.offset = off := offset_of_regAt h4 hr
      exact Reg.offset_not_reserved hl (exists_of_regAt hl hr) (hoff ▸ hres)
  · rfl

theorem hostRead_refused {addr width : Nat} (hw : s.inWindow addr = true) (hn : s.select addr width = none) :
    hostRead addr width s = .next s.refuseAccess := by
  simp only [hostRead, hw, hn, if_true]

theorem hostWrite_refused {addr width : Nat} (v : Word) (hw : s.inWindow addr = true)
    (hn : s.select addr width = none) : hostWrite addr width v s = .next s.refuseAccess := by
  simp only [hostWrite, hw, hn, if_true]

/-- With reset released the step of an access is the access. -/
theorem step_hostRead (h : s.inReset = false) (addr width : Nat) :
    step (s.sees (.hostRead addr width)) = hostRead addr width s := by
  simp only [step_sees, State.handle, h, Bool.false_eq_true, if_false]

theorem step_hostWrite (h : s.inReset = false) (addr width : Nat) (v : Word) :
    step (s.sees (.hostWrite addr width v)) = hostWrite addr width v s := by
  simp only [step_sees, State.handle, h, Bool.false_eq_true, if_false]

/-- Settles O43: such an access selects no register, and the refusal writes FAULTS and the response. -/
theorem badAccessesGetABusError : Obligations.BadAccessesGetABusError := by
  intro s off width v h hl ho hbad
  have hw : s.inWindow (s.busAddr off) = true := inWindow_busAddr s ho
  have hn : s.select (s.busAddr off) width = none := select_eq_none hl hbad
  rw [step_hostRead h, step_hostWrite h, hostRead_refused hw hn, hostWrite_refused v hw hn]
  exact ⟨rfl, rfl⟩

theorem inWindow_eq_false {addr : Nat} (h : addr < s.params.base ∨ s.params.base + 0x3000 ≤ addr) :
    s.inWindow addr = false := by
  simp only [State.inWindow, Bool.and_eq_false_iff, decide_eq_false_iff_not]
  omega

/-- Settles O44: the access is not in the window, which is the first thing either access asks. -/
theorem accessOutsideTheWindowStops : Obligations.AccessOutsideTheWindowStops := by
  intro s addr width v h hout
  have hw : s.inWindow addr = false := inWindow_eq_false hout
  rw [step_hostRead h, step_hostWrite h]
  simp only [hostRead, hostWrite, hw, Bool.false_eq_true, if_false, and_self]

/-! ### Buffer words -/

/-- Byte lane j of a word is its bits 8j+7:8j (R63). -/
theorem getElem?_bytesOfWord (v : Word) {j : Nat} (hj : j < 4) :
    (bytesOfWord v)[j]? = some (v.extractLsb' (8 * j) 8) := by
  interval_cases j <;> rfl

/-- Settles O46: with BUSY = 0 the write is not dropped, and writes the four byte lanes from index 4k. -/
theorem inWordWriteSetsFourBytes : Obligations.InWordWriteSetsFourBytes := by
  intro s k v h hl hk
  have hr : Reg.Exists s.params (.inWord k) := hk
  have hlen : (bytesOfWord v).length = 4 := rfl
  refine ⟨Memory.write s.inBuf (4 * k) (bytesOfWord v),
    step_write_of_idle (r := .inWord k) h { s with inBuf := Memory.write s.inBuf (4 * k) (bytesOfWord v) }
      (Reg.offset_lt hl hr) (Reg.offset_mod_four (.inWord k)) (regAt_inWord hl hk) rfl, ?_, ?_⟩
  · intro j hj
    rw [Memory.get_write, if_pos (by omega), Nat.add_sub_cancel_left, getElem?_bytesOfWord v hj]
  · intro a ha
    rw [Memory.get_write, if_neg (by omega)]

/-- A byte joined below `x`, as a word: `x` moved up by 8 bits, and the byte under it. -/
theorem setWidth_append_byte {w : Nat} (x : BitVec w) (b : Byte) :
    (x ++ b).setWidth 32 = x.setWidth 32 <<< 8 ||| b.setWidth 32 := by
  apply BitVec.eq_of_getLsbD_eq
  intro i hi
  rw [BitVec.getLsbD_setWidth, BitVec.getLsbD_append, BitVec.getLsbD_or]
  by_cases h8 : i < 8
  · simp [hi, h8, -BitVec.getLsbD_eq_getElem]
  · have hx : i - 8 < 32 := by omega
    simp [hi, h8, hx, BitVec.getLsbD_of_ge b i (by omega), -BitVec.getLsbD_eq_getElem]

/-- The word of four bytes has byte lane 0 at its low end (R63). -/
theorem wordOfBytes_four (b0 b1 b2 b3 : Byte) : wordOfBytes [b0, b1, b2, b3] = b3 ++ b2 ++ b1 ++ b0 := by
  have hlane3 : wordOfBytes [b3] = b3.setWidth 32 := BitVec.zero_or
  rw [wordOfBytes, wordOfBytes, wordOfBytes, hlane3]
  rw [← setWidth_append_byte, ← setWidth_append_byte, ← setWidth_append_byte]
  exact BitVec.setWidth_eq _

/-- The read of a buffer word whose bytes are defined records nothing. -/
theorem State.answerWord_of_defined (s : State) {m : Memory} {k : Nat} {b0 b1 b2 b3 : Byte}
    (h0 : Memory.get m (4 * k) = some b0) (h1 : Memory.get m (4 * k + 1) = some b1)
    (h2 : Memory.get m (4 * k + 2) = some b2) (h3 : Memory.get m (4 * k + 3) = some b3) :
    s.answerWord m k = s.answer (b3 ++ b2 ++ b1 ++ b0) := by
  have hdef : Memory.defined m (4 * k) 4 = true := by simp [Memory.defined, h0, h1, h2, h3]
  have hread : Memory.read m s.draws (4 * k) 4 = [b0, b1, b2, b3] := by simp [Memory.read, h0, h1, h2, h3]
  rw [State.answerWord, hdef, hread, wordOfBytes_four, State.noteRead_true]

/-- The read of a buffer word with an undefined byte records UNDEF_READ and uses up one draw. -/
theorem State.answerWord_of_undefined (s : State) {m : Memory} {k : Nat}
    (h : ∃ j, j < 4 ∧ Memory.get m (4 * k + j) = none) :
    ∃ v, s.answerWord m k =
      { s with faults := s.faults.add .undefRead, draws := s.draws + 1, response := .data v } := by
  obtain ⟨j, hj, hnone⟩ := h
  have hundef : Memory.defined m (4 * k) 4 = false := by
    refine Bool.eq_false_of_not_eq_true fun hdef => ?_
    have hsome := (Memory.defined_iff _ _ _).1 hdef j hj
    simp [hnone] at hsome
  rw [State.answerWord, hundef]
  exact ⟨_, rfl⟩

/-- Where R67 makes no draw, a read of a buffer word is a read of its four bytes. -/
theorem step_read_bufferWord {k off : Nat} {m : Memory} (h : s.inReset = false) (hl : s.params.Legal)
    (hk : k < s.params.bufBytes / 4)
    (hm : (off = 0x1000 ∧ m = s.inBuf) ∨ (off = 0x2000 ∧ m = s.outBuf ∧ s.busy = false)) :
    step (s.sees (.hostRead (s.busAddr (off + 4 * k)) 4)) = .next (s.answerWord m k) := by
  obtain ⟨rfl, rfl⟩ | ⟨rfl, rfl, hb⟩ := hm
  · exact step_read_at (r := .inWord k) h hl hk rfl
  · rw [step_read_at (r := .outWord k) (off := 0x2000 + 4 * k) h hl hk rfl, State.readReg, hb]
    rfl

/-- Settles O47, by the two cases of a read of four bytes. -/
theorem bufferWordReadIsLittleEndian : Obligations.BufferWordReadIsLittleEndian := by
  intro s k off m h hl hk hm
  rw [step_read_bufferWord h hl hk hm]
  constructor
  · intro b0 b1 b2 b3 h0 h1 h2 h3
    rw [s.answerWord_of_defined h0 h1 h2 h3]
    rfl
  · intro hundef
    obtain ⟨v, hv⟩ := s.answerWord_of_undefined hundef
    exact ⟨v, congrArg Host.Outcome.next hv⟩

/-! ### Writes that are ignored -/

theorem writeReg_of_readOnly {r : Reg} (v : Word) (hr : r.isWritable = false) (hs : r ≠ .status) :
    s.writeReg r v = s := by
  cases r with
  | status => exact absurd rfl hs
  | cmd | saddr | fcode | len | baud | inWord => cases hr
  | outLen | crc | lrc | timeLo | timeHi | params | tickhz | silent | pstat | lastReadLo | lastReadHi
    | outWord => rfl

theorem step_write_status (h : s.inReset = false) (v : Word) :
    step (s.sees (.hostWrite (s.busAddr 0x004) 4 v)) =
      .next { s with ovr := s.ovr && !v.getLsbD 2, response := .written } :=
  handle_write (r := .status) h (by decide) rfl rfl

/-- Settles O49: a write to a read-only register other than STATUS is none, and one to STATUS looks at bit 2 only. -/
theorem readOnlyWritesAreIgnored : Obligations.ReadOnlyWritesAreIgnored := by
  constructor
  · intro s r v h hl hr hro hs
    rw [step_write_offset h hl hr, writeReg_of_readOnly v hro hs]
    rfl
  · intro s v h
    rw [step_write_status h]
    constructor
    · intro hv
      rw [hv, Bool.not_true, Bool.and_false]
    · intro hv
      rw [hv, Bool.not_false, Bool.and_true]

/-! ### Reads that are draws -/

theorem State.rxPending_of_decode {p : Nat} (hb : s.busy = true) (hd : decode s.curCmd = .ok (.rxDone p)) :
    s.rxPending p = true := by
  simp [State.rxPending, hb, hd]

theorem State.answerUnless_of_pending {pending : Bool} (s : State) (v : Word) (h : pending = true) :
    s.answerUnless pending v = s.answerDraw := by
  simp [State.answerUnless, h]

/-- Settles O52: BUSY makes the reads of the results draws, and a pending RX_DONE those of its port's registers. -/
theorem resultReadsWhileBusyAreDraws : Obligations.ResultReadsWhileBusyAreDraws := by
  intro s r ⟨h, hb⟩ hl hr hresult
  have hdraw : s.readReg r = s.answerDraw := by
    obtain rfl | rfl | rfl | ⟨k, rfl⟩ | ⟨p, hd, hport⟩ := hresult
    · exact s.answerUnless_of_pending _ hb
    · exact s.answerUnless_of_pending _ hb
    · exact s.answerUnless_of_pending _ hb
    · exact if_pos hb
    · have hrx : s.rxPending p = true := State.rxPending_of_decode hb hd
      obtain rfl | rfl | rfl := hport <;> exact s.answerUnless_of_pending _ hrx
  rw [step_read_offset h hl hr, hdraw]
  rfl

/-! ### The operands of a pending command -/

/-- While BUSY = 1 a write can touch OVR and no other field (10_state R25; R65). -/
theorem writeReg_of_busy_frame (r : Reg) (v : Word) (hb : s.busy = true) :
    s.writeReg r v = { s with ovr := (s.writeReg r v).ovr } := by
  by_cases hs : r = .status
  · subst hs; rfl
  · cases hw : r.isWritable with
    | true => rw [writeReg_of_busy v hb hw]
    | false => rw [writeReg_of_readOnly v hw hs]

/-- `t` has `s`'s command word, operand registers, IN and ports; by default each holds by computation. -/
structure State.AgreesOnOperands (s t : State) : Prop where
  curCmd : t.curCmd = s.curCmd := by rfl
  saddr : t.saddr = s.saddr := by rfl
  fcode : t.fcode = s.fcode := by rfl
  len : t.len = s.len := by rfl
  inBuf : t.inBuf = s.inBuf := by rfl
  ports : t.ports = s.ports := by rfl

/-- An event that neither accepts nor ends the pending command leaves its word and operands alone. The engine's own
step completes the command, or is that of a hold and writes nothing. -/
theorem EventEffect.agreesOnOperands {e : Event} (c : EventEffect s e t) (hs : s.busy = true)
    (ht : t.busy = true) : s.AgreesOnOperands t := by
  cases c with
  | held | notTaken | busError | noCommand | tick | assert | notAsserted => exact {}
  | read => rw [s.readReg_frame]; exact {}
  | write => rw [writeReg_of_busy_frame _ _ hs]; exact {}
  | command _ _ hx =>
    obtain ⟨hb, -⟩ | rfl := (exec_effect hx).completes_or_holds
    · rw [hb] at ht; cases ht
    · exact {}
  | illegal | released => cases ht

/-- Settles O60: a step is one event on the state less that event, and BAUD is part of the ports, which stay. -/
theorem operandsAreFrozenWhileBusy : Obligations.OperandsAreFrozenWhileBusy := by
  intro s t hstep hs ht
  obtain ⟨u, e, hu, es, rfl⟩ := step_is_event s
  rw [hu] at hstep
  obtain ⟨curCmd, saddr, fcode, len, inBuf, ports⟩ := (handle_effect hstep).agreesOnOperands hs ht
  exact ⟨curCmd, saddr, fcode, len, inBuf, fun p => congrArg Port.baud (s.port_congr ports p)⟩

end Sys2Proof.Machine

/-! # Command words

The decoder and the encoder read one map, row by row (30_encoding R91 to R93), and the words that no row matches are
those of R94. -/

namespace Sys2Proof

/-! ### Decode and encode -/

theorem Opcode.matches_iff (r : Opcode) (w : Word) : r.matches w = true ↔ w &&& r.mask = r.value :=
  beq_iff_eq

/-- The decoder answers `i` exactly when the row of `i` matches and its operands are the word's fields. -/
theorem decode_ok_iff_row (w : Word) (i : Instr) :
    decode w = .ok i ↔ w &&& i.opcode.mask = i.opcode.value ∧ i.opcode.instr w = i := by
  rw [← Opcode.matches_iff, decode_ok_iff]
  constructor
  · rintro ⟨r, hr, rfl⟩
    rw [instr_opcode]
    exact ⟨hr, rfl⟩
  · rintro ⟨hm, hi⟩
    exact ⟨i.opcode, hm, hi⟩

/-- A field left in its place is the word under the mask of the field's bits. -/
theorem fieldAt_extract (w : Word) {m : Word} {k l : Nat}
    (hm : ∀ j < 32, m.getLsbD j = (decide (k ≤ j) && decide (j - k < l))) :
    Machine.fieldAt k (w.extractLsb' k l) = w &&& m := by
  apply BitVec.eq_of_getLsbD_eq
  intro j hj
  rw [Machine.getLsbD_fieldAt k _ hj, BitVec.getLsbD_extractLsb', BitVec.getLsbD_and, hm j hj]
  by_cases hk : k ≤ j
  · rw [Nat.add_sub_cancel' hk, decide_eq_true hk, Bool.true_and, Bool.true_and, Bool.and_comm]
  · rw [decide_eq_false hk, Bool.false_and, Bool.false_and, Bool.and_false]

/-- The operands of a command are the bits of the word that its row's mask leaves out. -/
theorem operandBits_instr (r : Opcode) (w : Word) : (r.instr w).operandBits = w &&& ~~~r.mask := by
  have hnone : 0 = w &&& ~~~0xFFFFFFFF := by simp
  have hdata : placeData (fieldData w) = w &&& ~~~0xFF00FFFF := fieldAt_extract (k := 16) w (by decide)
  have hport : placePort (fieldPort w).toNat = w &&& ~~~0xFFFF0FFF := by
    rw [placePort, BitVec.ofNat_toNat, BitVec.setWidth_eq]
    exact fieldAt_extract (k := 12) w (by decide)
  cases r with
  | crcFeed | lrcFeed => exact hdata
  | gateTx | rxDone => exact hport
  | _ => exact hnone

/-- Encoding the command of the row that matches a word gives the word back. -/
theorem encode_instr {r : Opcode} (h : w &&& r.mask = r.value) : encode (r.instr w) = w := by
  rw [encode, instr_opcode, operandBits_instr, ← h, ← BitVec.and_or_distrib_left, BitVec.or_not_self,
    BitVec.and_allOnes]

theorem instr_wellFormed (r : Opcode) (w : Word) : (r.instr w).WellFormed := by
  cases r with
  | gateTx | rxDone => exact decide_eq_true (fieldPort w).isLt
  | _ => rfl

theorem encode_matches (i : Instr) : encode i &&& i.opcode.mask = i.opcode.value := by
  rw [← Opcode.matches_iff]
  cases i with
  | crcInit => exact Laws.EncodesItsRow.crcInit
  | crcFeed b => exact Laws.EncodesItsRow.crcFeed b
  | crcBuf => exact Laws.EncodesItsRow.crcBuf
  | lrcInit => exact Laws.EncodesItsRow.lrcInit
  | lrcFeed b => exact Laws.EncodesItsRow.lrcFeed b
  | lrcBuf => exact Laws.EncodesItsRow.lrcBuf
  | embedRtu => exact Laws.EncodesItsRow.embedRtu
  | embedAscii => exact Laws.EncodesItsRow.embedAscii
  | extractRtu => exact Laws.EncodesItsRow.extractRtu
  | extractAscii => exact Laws.EncodesItsRow.extractAscii
  | gateTx p => exact Laws.EncodesItsRow.gateTx p
  | rxDone p => exact Laws.EncodesItsRow.rxDone p

theorem fieldData_value (r : Opcode) : fieldData r.value = 0 := by
  cases r <;> decide

theorem fieldPort_value (r : Opcode) : fieldPort r.value = 0 := by
  cases r <;> decide

theorem fieldData_value_or_placeData (r : Opcode) (b : Byte) : fieldData (r.value ||| placeData b) = b := by
  have hb : fieldData (placeData b) = b := Machine.extract_fieldAt_same (k := 16) b (by decide)
  rw [fieldData, extract_or, ← fieldData, ← fieldData, fieldData_value, hb]
  exact BitVec.zero_or

theorem fieldPort_value_or_placePort (r : Opcode) {p : Nat} (hp : p < 16) :
    (fieldPort (r.value ||| placePort p)).toNat = p := by
  have hb : fieldPort (placePort p) = BitVec.ofNat 4 p := Machine.extract_fieldAt_same (k := 12) _ (by decide)
  rw [fieldPort, extract_or, ← fieldPort, ← fieldPort, fieldPort_value, hb]
  simp [Nat.mod_eq_of_lt hp]

/-- The fields of a well-formed command's word hold its operands. -/
theorem instr_encode {i : Instr} (h : i.WellFormed) : i.opcode.instr (encode i) = i := by
  cases i with
  | crcFeed b | lrcFeed b => exact congrArg _ (fieldData_value_or_placeData _ b)
  | gateTx p | rxDone p => exact congrArg _ (fieldPort_value_or_placePort _ (of_decide_eq_true h))
  | _ => rfl

/-- Settles O3: what a row's mask leaves out of a word is exactly the operands, so neither direction loses a bit. -/
theorem decodeAndEncodeAgree : Obligations.DecodeAndEncodeAgree := by
  intro w i
  rw [decode_ok_iff_row]
  constructor
  · rintro ⟨hm, hi⟩
    rw [← hi]
    exact ⟨instr_wellFormed _ w, encode_instr hm⟩
  · rintro ⟨hwf, rfl⟩
    exact ⟨encode_matches i, instr_encode hwf⟩

/-- Settles O1: each word is the encoding of its command. -/
theorem tableWordsDecodeToTheirCommands : Obligations.TableWordsDecodeToTheirCommands := by
  refine ⟨?_, ?_, ?_, ?_, ?_, ?_, ?_, ?_, ?_, ?_, ?_, ?_⟩ <;> exact (decodeAndEncodeAgree _ _).2 ⟨rfl, rfl⟩

/-! ### The rows of the map -/

/-- A command without operands is its row's, whatever the word. -/
theorem decode_fixed_iff {w : Word} {i : Instr} (h : i.opcode.instr w = i) :
    decode w = .ok i ↔ w &&& i.opcode.mask = i.opcode.value :=
  (decode_ok_iff_row w i).trans (and_iff_left h)

/-- A command with the operand `x` has in a word `w` of its row the operand `y` that the row reads from `w`. -/
theorem decode_operand_iff {α : Type} {f : α → Instr} (hf : Function.Injective f) {w : Word} {x y : α}
    (h : (f x).opcode.instr w = f y) :
    decode w = .ok (f x) ↔ w &&& (f x).opcode.mask = (f x).opcode.value ∧ x = y := by
  rw [decode_ok_iff_row, h, hf.eq_iff, eq_comm (a := y)]

/-- Settles O2: each clause is the row's match and mask, with the operand that the row reads from the word. -/
theorem wordIsCommandExactlyWhenMasked : Obligations.WordIsCommandExactlyWhenMasked := fun _ =>
  ⟨decode_fixed_iff (i := .crcInit) rfl,
    fun _ => decode_operand_iff (f := .crcFeed) (fun _ _ => Instr.crcFeed.inj) rfl,
    decode_fixed_iff (i := .crcBuf) rfl,
    decode_fixed_iff (i := .lrcInit) rfl,
    fun _ => decode_operand_iff (f := .lrcFeed) (fun _ _ => Instr.lrcFeed.inj) rfl,
    decode_fixed_iff (i := .lrcBuf) rfl,
    decode_fixed_iff (i := .embedRtu) rfl,
    decode_fixed_iff (i := .embedAscii) rfl,
    decode_fixed_iff (i := .extractRtu) rfl,
    decode_fixed_iff (i := .extractAscii) rfl,
    fun _ => decode_operand_iff (f := .gateTx) (fun _ _ => Instr.gateTx.inj) rfl,
    fun _ => decode_operand_iff (f := .rxDone) (fun _ _ => Instr.rxDone.inj) rfl⟩

/-! ### Illegal words -/

/-- The opcode map has a row with this OP and MODE. -/
theorem exists_row_iff (op : Byte) (mode : BitVec 1) :
    (∃ r : Opcode, op = fieldOp r.value ∧ mode = fieldMode r.value) ↔
      knownOp op = true ∧ (mode = 1 → usesMode op = true) := by
  constructor
  · rintro ⟨r, rfl, rfl⟩
    cases r <;> decide
  · rintro ⟨hop, hmode⟩
    have hzero (h : usesMode op = false) : mode = 0 :=
      (BitVec.eq_zero_or_eq_one mode).resolve_right fun h1 => by simp [hmode h1] at h
    simp only [knownOp, List.contains_iff_mem, List.mem_cons, List.not_mem_nil, or_false] at hop
    obtain rfl | rfl | rfl | rfl | rfl | rfl | rfl | rfl | rfl | rfl := hop
    · exact ⟨.crcInit, rfl, hzero rfl⟩
    · exact ⟨.crcFeed, rfl, hzero rfl⟩
    · exact ⟨.crcBuf, rfl, hzero rfl⟩
    · exact ⟨.lrcInit, rfl, hzero rfl⟩
    · exact ⟨.lrcFeed, rfl, hzero rfl⟩
    · exact ⟨.lrcBuf, rfl, hzero rfl⟩
    · obtain rfl | rfl := BitVec.eq_zero_or_eq_one mode
      · exact ⟨.embedRtu, rfl, rfl⟩
      · exact ⟨.embedAscii, rfl, rfl⟩
    · obtain rfl | rfl := BitVec.eq_zero_or_eq_one mode
      · exact ⟨.extractRtu, rfl, rfl⟩
      · exact ⟨.extractAscii, rfl, rfl⟩
    · exact ⟨.gateTx, rfl, hzero rfl⟩
    · exact ⟨.rxDone, rfl, hzero rfl⟩

/-- A word decodes to a command exactly when no bullet of R94 is about it. -/
theorem exists_decode_ok_iff (w : Word) : (∃ i, decode w = .ok i) ↔
    knownOp (fieldOp w) = true ∧ (fieldRes0 w = 0 ∧ fieldRes1 w = 0) ∧
    (fieldMode w = 1 → usesMode (fieldOp w) = true) ∧ (fieldPort w ≠ 0 → usesPort (fieldOp w) = true) ∧
    (fieldData w ≠ 0 → usesData (fieldOp w) = true) := by
  constructor
  · rintro ⟨i, hd⟩
    obtain ⟨r, hr, -⟩ := (decode_ok_iff w i).1 hd
    obtain ⟨hop, hmode, hres0, hport, hdata, hres1⟩ := (r.matches_iff_fields w).1 hr
    obtain ⟨hknown, huses⟩ := (exists_row_iff _ _).1 ⟨r, hop, hmode⟩
    exact ⟨hknown, ⟨hres0, hres1⟩, huses, hport.resolve_left, hdata.resolve_left⟩
  · rintro ⟨hknown, ⟨hres0, hres1⟩, huses, hport, hdata⟩
    obtain ⟨r, hop, hmode⟩ := (exists_row_iff _ _).2 ⟨hknown, huses⟩
    have hr := (r.matches_iff_fields w).2
      ⟨hop, hmode, hres0, or_iff_not_imp_left.2 hport, or_iff_not_imp_left.2 hdata, hres1⟩
    exact ⟨r.instr w, (decode_ok_iff w _).2 ⟨r, hr, rfl⟩⟩

/-- Settles O4: the bullets of R94 are the ways for a word to meet no row, and R93 says how such a word completes. -/
theorem illegalWordsAreThoseListed : Obligations.IllegalWordsAreThoseListed := by
  have hlisted (w : Word) : (∀ i, decode w ≠ .ok i) ↔ _ :=
    not_exists.symm.trans (not_congr (exists_decode_ok_iff w))
  simp only [not_and_or, Classical.not_imp, knownOp, usesMode, usesPort, usesData, List.contains_iff_mem] at hlisted
  refine ⟨hlisted, (hlisted 0).2 (.inl (by decide)), fun s h hillegal => ?_⟩
  rw [Machine.step_sees]
  cases hd : decode s.curCmd with
  | ok i => exact absurd hd (hillegal i)
  | error x => exact Machine.handle_engine_illegal h hd

/-- Settles O5: the engine's step on the pending command is its exec, and the idle event is that step. -/
theorem engineStepRunsTheDecodedCommand : Obligations.EngineStepRunsTheDecodedCommand := by
  intro s i h hd
  refine ⟨Machine.handle_engine h hd, fun hnone hwait => ?_⟩
  have hidle : s.idleEvent = .engine := by simp [Machine.State.idleEvent, Machine.State.engineEnabled, h.2, hwait]
  rw [Machine.step_idle hnone, hidle, Machine.handle_engine h hd]

end Sys2Proof

/-! # The hex code

A digit has the value of its nibble and no other character has one, so hexdec undoes hexenc and hexenc hexdec
(30_encoding R103, R104). -/

namespace Sys2Proof.Machine

/-- HEX of R103: '0' to '9', then 'A' to 'F'. -/
def hexChars : List Byte :=
  [0x30, 0x31, 0x32, 0x33, 0x34, 0x35, 0x36, 0x37, 0x38, 0x39, 0x41, 0x42, 0x43, 0x44, 0x45, 0x46]

/-- A nibble's digit is the character of HEX at its value. -/
theorem getElem?_hexChars (n : BitVec 4) : hexChars[n.toNat]? = some (hexDigit n) := by
  revert n; decide

theorem hexDigit_mem_hexChars (n : BitVec 4) : hexDigit n ∈ hexChars :=
  List.mem_of_getElem? (getElem?_hexChars n)

theorem toNat_hexDigit (n : BitVec 4) :
    (hexDigit n).toNat = if n.toNat < 10 then 0x30 + n.toNat else 0x37 + n.toNat := by
  revert n; decide

/-- A character that has a value is the digit of that value. -/
theorem hexDigit_of_hexVal {c : Byte} {n : BitVec 4} (h : hexVal c = some n) : hexDigit n = c := by
  apply BitVec.eq_of_toNat_eq
  rw [toNat_hexDigit]
  unfold hexVal at h
  split at h
  · have hn : n.toNat = c.toNat - 0x30 := by cases h; simp; omega
    rw [if_pos (by omega)]; omega
  · split at h
    · have hn : n.toNat = c.toNat - 0x37 := by cases h; simp; omega
      rw [if_neg (by omega)]; omega
    · cases h

theorem isSome_hexVal_iff (c : Byte) : (hexVal c).isSome = true ↔ c ∈ hexChars := by
  constructor
  · intro h
    obtain ⟨n, hn⟩ := Option.isSome_iff_exists.1 h
    rw [← hexDigit_of_hexVal hn]
    exact hexDigit_mem_hexChars n
  · have hall : ∀ c ∈ hexChars, (hexVal c).isSome = true := by decide
    exact hall c

/-- The characters of the encoding, two for each byte. -/
theorem getElem?_hexenc (s : List Byte) {i : Nat} (h : i < s.length) :
    (hexenc s)[2 * i]? = some (hexDigit ((s.getD i 0).extractLsb' 4 4)) ∧
    (hexenc s)[2 * i + 1]? = some (hexDigit ((s.getD i 0).extractLsb' 0 4)) := by
  induction s generalizing i with
  | nil => cases h
  | cons b s ih =>
    cases i with
    | zero => exact ⟨rfl, rfl⟩
    | succ i => exact ih (Nat.lt_of_succ_lt_succ h)

theorem hexdec_hexenc (s : List Byte) : hexdec (hexenc s) = some s := by
  induction s with
  | nil => rfl
  | cons b s ih =>
    have hb : b.extractLsb' 4 4 ++ b.extractLsb' 0 4 = b := BitVec.extractLsb'_append_extractLsb' (w := 4) (len := 4)
    simp [hexdec, ih, hb]

theorem hexenc_of_hexdec {h d : List Byte} (e : hexdec h = some d) : hexenc d = h := by
  fun_induction hexdec h generalizing d with
  | case1 => cases e; rfl
  | case2 => cases e
  | case3 hi lo h a b d' hd' hhi hlo ih =>
    cases e
    rw [hexenc_cons, BitVec.extractLsb'_append_eq_left, BitVec.extractLsb'_append_eq_right,
      hexDigit_of_hexVal hhi, hexDigit_of_hexVal hlo, ih hd']
  | case4 => cases e

theorem isSome_hexdec_cons_cons (hi lo : Byte) (h : List Byte) :
    (hexdec (hi :: lo :: h)).isSome = ((hexVal hi).isSome && (hexVal lo).isSome && (hexdec h).isSome) := by
  rw [hexdec]
  cases hexVal hi <;> cases hexVal lo <;> cases hexdec h <;> rfl

theorem isSome_hexdec_iff (h : List Byte) :
    (hexdec h).isSome = true ↔ h.length % 2 = 0 ∧ ∀ c ∈ h, c ∈ hexChars := by
  induction h using List.twoStepInduction with
  | nil => simp [hexdec]
  | singleton c => simp [hexdec]
  | cons_cons hi lo h ih _ =>
    rw [isSome_hexdec_cons_cons, Bool.and_eq_true, Bool.and_eq_true, isSome_hexVal_iff, isSome_hexVal_iff, ih,
      List.forall_mem_cons, List.forall_mem_cons, List.length_cons, List.length_cons, Nat.add_assoc,
      Nat.add_mod_right, and_left_comm, and_assoc]

/-- Settles O26: HEX and the digits of the model are one alphabet, and a byte is its two nibbles. -/
theorem hexCodeIsInvertible : Obligations.HexCodeIsInvertible := by
  rintro hex rfl
  refine ⟨fun s => ⟨length_hexenc s, fun i hi => ?_⟩, hexdec_hexenc, fun h d => hexenc_of_hexdec, isSome_hexdec_iff⟩
  obtain ⟨hhigh, hlow⟩ := getElem?_hexenc s hi
  exact ⟨hhigh.trans (getElem?_hexChars _).symm, hlow.trans (getElem?_hexChars _).symm⟩

end Sys2Proof.Machine

/-! # The checksums

The CRC register is shifted by an injective function, so it is a fold injective in the register and in the byte; a
byte equal to the register's low byte shifts the register right by 8 (40_checksum R130, R131, R133, R135). The LRC is
minus the sum of the bytes (R132). -/

namespace Sys2Proof.Machine

/-! ### Folds injective in both arguments -/

theorem foldl_injective {α β : Type} {f : α → β → α} (hf : ∀ b, Function.Injective fun a => f a b) (s : List β) :
    Function.Injective fun a => s.foldl f a := by
  induction s with
  | nil => exact Function.injective_id
  | cons b s ih => exact ih.comp (hf b)

/-- Two strings that differ in one element have different folds. -/
theorem foldl_ne_of_ne {α β : Type} {f : α → β → α} (hleft : ∀ b, Function.Injective fun a => f a b)
    (hright : ∀ a, Function.Injective (f a)) (a : α) (u v : List β) {b c : β} (h : b ≠ c) :
    (u ++ b :: v).foldl f a ≠ (u ++ c :: v).foldl f a := by
  rw [List.foldl_append, List.foldl_append]
  exact (foldl_injective hleft v).ne ((hright _).ne h)

/-! ### The CRC -/

theorem crcShifts_eq_iterate (n : Nat) (c : Half) : crcShifts n c = crcShift^[n] c := by
  induction n generalizing c with
  | zero => rfl
  | succ n ih => exact ih (crcShift c)

/-- The polynomial's bit 15 keeps the bit that the shift drops. -/
theorem getLsbD_crcShift_last (c : Half) : (crcShift c).getLsbD 15 = c.getLsbD 0 := by
  rw [crcShift]
  cases c.getLsbD 0 <;> simp [crcPoly]

theorem crcShift_injective : Function.Injective crcShift := by
  intro c d h
  have hbit : c.getLsbD 0 = d.getLsbD 0 := by rw [← getLsbD_crcShift_last, h, getLsbD_crcShift_last]
  have hshift : c >>> 1 = d >>> 1 := by
    simp only [crcShift, hbit] at h
    split at h
    · exact (BitVec.xor_left_inj _).1 h
    · exact h
  apply BitVec.eq_of_getLsbD_eq
  intro i _
  cases i with
  | zero => exact hbit
  | succ i => simpa [Nat.add_comm] using congrArg (·.getLsbD i) hshift

theorem crcShifts_injective (n : Nat) : Function.Injective (crcShifts n) := by
  rw [funext (crcShifts_eq_iterate n)]
  exact crcShift_injective.iterate n

theorem crcStep_injective_register (b : Byte) : Function.Injective fun c => crcStep c b :=
  (crcShifts_injective 8).comp fun _ _ => (BitVec.xor_left_inj _).1

theorem crcStep_injective_byte (c : Half) : Function.Injective (crcStep c) := by
  intro a b h
  have hwide : a.setWidth 16 = b.setWidth 16 := (BitVec.xor_right_inj _).1 (crcShifts_injective 8 h)
  simpa using congrArg (·.setWidth 8) hwide

/-- Zeros shifted out meet no polynomial. -/
theorem crcShifts_of_low_zero (n : Nat) {c : Half} (h : ∀ i < n, c.getLsbD i = false) : crcShifts n c = c >>> n := by
  induction n generalizing c with
  | zero => simp [crcShifts]
  | succ n ih =>
    have hfirst : crcShift c = c >>> 1 := if_neg (by rw [h 0 (Nat.succ_pos n)]; exact Bool.false_ne_true)
    have hrest : ∀ i < n, (c >>> 1).getLsbD i = false := fun i hi => by
      simpa [Nat.add_comm] using h (i + 1) (Nat.succ_lt_succ hi)
    rw [crcShifts, hfirst, ih hrest, ← BitVec.shiftRight_add, Nat.add_comm]

/-- The register's own low byte cancels it, which leaves eight plain shifts. -/
theorem crcStep_low_byte (c : Half) : crcStep c (c.extractLsb' 0 8) = c >>> 8 := by
  have hlow : ∀ i < 8, (c ^^^ (c.extractLsb' 0 8).setWidth 16).getLsbD i = false := fun i hi => by
    simp [hi, Nat.lt_trans hi (by decide : 8 < 16)]
  rw [crcStep, crcShifts_of_low_zero 8 hlow]
  apply BitVec.eq_of_getLsbD_eq
  intro i _
  simp

/-- A register that takes the two wire bytes of its own value, in their order, ends at 0. -/
theorem crcFeed_crcWire (c : Half) : crcFeed c (crcWire c) = 0 := by
  have hhigh : c.extractLsb' 8 8 = (c >>> 8).extractLsb' 0 8 := by
    apply BitVec.eq_of_getLsbD_eq
    intro i hi
    simp [hi]
  calc crcFeed c (crcWire c) = crcStep (crcStep c (c.extractLsb' 0 8)) (c.extractLsb' 8 8) := rfl
    _ = crcStep (c >>> 8) ((c >>> 8).extractLsb' 0 8) := by rw [crcStep_low_byte, hhigh]
    _ = c >>> 16 := by rw [crcStep_low_byte, ← BitVec.shiftRight_add]
    _ = 0 := BitVec.ushiftRight_eq_zero (Nat.le_refl 16)

theorem crcFeed_append (c : Half) (s t : List Byte) : crcFeed c (s ++ t) = crcFeed (crcFeed c s) t :=
  List.foldl_append

/-- Settles O11: the wire bytes follow on the register whose bytes they are. -/
theorem crcResidueIsZero : Obligations.CrcResidueIsZero := by
  intro s
  rw [crc16, crcFeed_append]
  exact crcFeed_crcWire (crc16 s)

/-- Settles O9: the register values are the iterates of one shift. -/
theorem crcFollowsTheAlgorithm : Obligations.CrcFollowsTheAlgorithm := by
  refine ⟨fun c b => ⟨fun k => crcShift^[k] (c ^^^ b.setWidth 16), rfl, fun k _ => ?_, crcShifts_eq_iterate 8 _⟩, rfl,
    fun s b => crcFeed_append crcInitial s [b], by decide +kernel⟩
  exact Function.iterate_succ_apply' crcShift k _

/-! ### The LRC -/

theorem toNat_sumFeed (b : Byte) (s : List Byte) :
    (sumFeed b s).toNat = (b.toNat + (s.map BitVec.toNat).sum) % 256 := by
  induction s generalizing b with
  | nil => exact (Nat.mod_eq_of_lt b.isLt).symm
  | cons x s ih =>
    change (sumFeed (b + x) s).toNat = _
    rw [ih, BitVec.toNat_add, Nat.mod_add_mod, List.map_cons, List.sum_cons, Nat.add_assoc]

theorem toNat_byteSum (s : List Byte) : (byteSum s).toNat = (s.map BitVec.toNat).sum % 256 := by
  rw [byteSum, toNat_sumFeed]
  simp

/-- Settles O10: the LRC is defined by the XOR form, which is a two's complement, and the bits of the sum above bit 7
come through the XOR above bit 7. -/
theorem lrcIsTwosComplementOfTheSum : Obligations.LrcIsTwosComplementOfTheSum := by
  refine ⟨fun s => ?_, rfl⟩
  have hmask (n : Nat) : n &&& 0xFF = n % 256 := Nat.and_two_pow_sub_one_eq_mod n 8
  have hneg : (lrc s).toNat = (256 - (s.map BitVec.toNat).sum % 256) % 256 := by
    rw [lrc, lrcOfSum_eq_neg, BitVec.toNat_neg, toNat_byteSum]
  have hxor : (lrc s).toNat = ((s.map BitVec.toNat).sum % 256 ^^^ 0xFF) + 1 &&& 0xFF := by
    rw [lrc, lrcOfSum, BitVec.toNat_add, BitVec.toNat_xor, toNat_byteSum, hmask]
    rfl
  have hreduce (n : Nat) : (n % 256 ^^^ 0xFF) + 1 &&& 0xFF = (n ^^^ 0xFF) + 1 &&& 0xFF := by
    have hmod : n % 256 ^^^ 0xFF = (n ^^^ 0xFF) % 256 := (Nat.xor_mod_two_pow (b := 0xFF) (n := 8)).symm
    rw [hmask, hmask, hmod, Nat.mod_add_mod]
  exact ⟨hneg, hxor, hxor.trans (hreduce _)⟩

theorem lrcOfSum_injective : Function.Injective lrcOfSum := by
  rw [funext lrcOfSum_eq_neg]
  exact neg_injective

/-- Settles O12: both checksums are folds injective in the accumulator and in the byte. -/
theorem checksumsSeeEveryOneByteChange : Obligations.ChecksumsSeeEveryOneByteChange := fun u v _ _ h =>
  ⟨lrcOfSum_injective.ne (foldl_ne_of_ne add_left_injective add_right_injective 0 u v h),
    foldl_ne_of_ne crcStep_injective_register crcStep_injective_byte crcInitial u v h⟩

/-! ### The commands -/

/-- A row whose mask has every bit is the command of one word. -/
theorem decode_ok_iff_eq {w : Word} {i : Instr} (hi : i.opcode.instr w = i) (hm : i.opcode.mask = 0xFFFFFFFF) :
    decode w = .ok i ↔ w = i.opcode.value := by
  have hall : w &&& 0xFFFFFFFF = w := BitVec.and_allOnes
  rw [decode_fixed_iff hi, hm, hall]

/-- Settles O13: the arm writes CRC and completes. -/
theorem crcInitSetsTheInitialValue : Obligations.CrcInitSetsTheInitialValue :=
  ⟨fun _ => rfl, fun _ => decode_ok_iff_eq (i := .crcInit) rfl rfl⟩

/-- Settles O14: the arm steps CRC and completes, and the row reads its byte from bits 23:16. -/
theorem crcFeedFoldsOneByte : Obligations.CrcFeedFoldsOneByte :=
  ⟨fun _ _ => rfl, fun _ _ => decode_operand_iff (f := .crcFeed) (fun _ _ => Instr.crcFeed.inj) rfl⟩

/-- Settles O16: the arm writes LRCSUM and completes. -/
theorem lrcInitClearsTheSum : Obligations.LrcInitClearsTheSum :=
  ⟨fun _ => rfl, fun _ => decode_ok_iff_eq (i := .lrcInit) rfl rfl⟩

/-- Settles O17: a byte's addition is modulo 256. -/
theorem lrcFeedAddsOneByte : Obligations.LrcFeedAddsOneByte :=
  ⟨fun s b => ⟨s.lrcSum + b, BitVec.toNat_add _ _, rfl⟩,
    fun _ _ => decode_operand_iff (f := .lrcFeed) (fun _ _ => Instr.lrcFeed.inj) rfl⟩

section
variable {s : State} {bs : List Byte}

theorem State.lenTooLong_iff : s.lenTooLong = true ↔ s.params.bufBytes < s.len.toNat := decide_eq_true_iff

theorem State.InputIs.lenTooLong_eq (h : s.InputIs bs) (hfit : bs.length ≤ s.params.bufBytes) :
    s.lenTooLong = false := by
  obtain ⟨hlen, -⟩ := h
  exact Bool.eq_false_iff.2 (State.lenTooLong_iff.not.2 (by omega))

theorem exec_crcBuf_of_inputIs (h : s.InputIs bs) (hfit : bs.length ≤ s.params.bufBytes) :
    exec .crcBuf s = .next (((s.setCrc (crc16 bs)).putOut (crcBytes bs)).complete .ok) := by
  rw [exec, execCrcBuf, h.lenTooLong_eq hfit, h.readIn_eq, h.inBytes_eq]
  rfl

theorem exec_lrcBuf_of_inputIs (h : s.InputIs bs) (hfit : bs.length ≤ s.params.bufBytes) :
    exec .lrcBuf s = .next (((s.setLrcSum (byteSum bs)).putOut [lrc bs]).complete .ok) := by
  rw [exec, execLrcBuf, h.lenTooLong_eq hfit, h.readIn_eq, h.inBytes_eq]
  rfl

end

/-- Settles O15: the length check, then the CRC of the operand and its wire bytes over the first two of OUT. -/
theorem crcBufComputesCrcOfInput : Obligations.CrcBufComputesCrcOfInput :=
  ⟨fun _ _ h hfit => ⟨_, exec_crcBuf_of_inputIs h hfit, Memory.overwritten_write _ _⟩,
    fun _ h => if_pos (State.lenTooLong_iff.2 h),
    fun _ => decode_ok_iff_eq (i := .crcBuf) rfl rfl⟩

/-- Settles O18: the length check, then the sum of the operand and its LRC over the first byte of OUT. -/
theorem lrcBufComputesLrcOfInput : Obligations.LrcBufComputesLrcOfInput :=
  ⟨fun _ bs h hfit => ⟨_, _, exec_lrcBuf_of_inputIs h hfit, toNat_byteSum bs, Memory.overwritten_write _ _⟩,
    fun _ h => if_pos (State.lenTooLong_iff.2 h),
    fun _ => decode_ok_iff_eq (i := .lrcBuf) rfl rfl⟩

/-! ### Streams of commands -/

/-- Commands that do not write OUT leave it as it was, run one after another. -/
theorem execAll_out_eq {is : List Instr} {s t : State} (hx : execAll is s = .next t)
    (hw : ∀ i ∈ is, writesOut i = false) : t.outBuf = s.outBuf ∧ t.outLen = s.outLen := by
  induction is generalizing s with
  | nil => cases hx; exact ⟨rfl, rfl⟩
  | cons i is ih =>
    obtain ⟨hi, his⟩ := List.forall_mem_cons.1 hw
    rw [execAll] at hx
    split at hx
    case h_1 u hu =>
      obtain ⟨hbuf, hlen⟩ := ih hx his
      obtain ⟨hbuf', hlen', -⟩ := (exec_effect hu).out_eq hi
      exact ⟨hbuf.trans hbuf', hlen.trans hlen'⟩
    all_goals cases hx

theorem execAll_crcFeeds (s : State) (bs : List Byte) :
    ∃ t, execAll (bs.map .crcFeed) s = .next t ∧ t.crc = crcFeed s.crc bs := by
  induction bs generalizing s with
  | nil => exact ⟨s, rfl, rfl⟩
  | cons b bs ih => exact ih ((s.setCrc (crcStep s.crc b)).complete .ok)

theorem execAll_lrcFeeds (s : State) (bs : List Byte) :
    ∃ t, execAll (bs.map .lrcFeed) s = .next t ∧ t.lrcSum = sumFeed s.lrcSum bs := by
  induction bs generalizing s with
  | nil => exact ⟨s, rfl, rfl⟩
  | cons b bs ih => exact ih ((s.setLrcSum (s.lrcSum + b)).complete .ok)

/-- Settles O19: the accumulator after the stream is the fold that the buffer form computes, and no command of the
stream writes OUT. -/
theorem streamingAgreesWithBuffer : Obligations.StreamingAgreesWithBuffer := by
  intro r s bs h hfit
  constructor
  · obtain ⟨t, ht, hcrc⟩ := execAll_crcFeeds ((r.setCrc crcInitial).complete .ok) bs
    have hx : execAll (.crcInit :: bs.map .crcFeed) r = .next t := ht
    obtain ⟨hbuf, hlen⟩ := execAll_out_eq hx (by simp [writesOut])
    exact ⟨t, _, hx, exec_crcBuf_of_inputIs h hfit, hcrc, hbuf, hlen, rfl, Memory.overwritten_write _ _⟩
  · obtain ⟨t, ht, hsum⟩ := execAll_lrcFeeds ((r.setLrcSum 0).complete .ok) bs
    have hx : execAll (.lrcInit :: bs.map .lrcFeed) r = .next t := ht
    obtain ⟨hbuf, hlen⟩ := execAll_out_eq hx (by simp [writesOut])
    exact ⟨t, _, hx, exec_lrcBuf_of_inputIs h hfit, hsum, hbuf, hlen, rfl, Memory.overwritten_write _ _⟩

end Sys2Proof.Machine

/-! # The frame codec: the checks of received bytes

What each check of EXTRACT answers (41_frame_codec R165 to R168), on any received bytes and on what the layouts of R161
and R162 build. -/

namespace Sys2Proof.Machine

variable {a f : Byte} {b d h w : List Byte}

/-! ### The ends of a string -/

theorem drop_length_sub_one (hb : 1 ≤ b.length) : b.drop (b.length - 1) = [b.getD (b.length - 1) 0] := by
  rw [List.drop_eq_getElem_cons (by omega), List.drop_eq_nil_of_le (by omega), List.getD_eq_getElem _ _ (by omega)]

theorem drop_length_sub_two (hw : 2 ≤ w.length) :
    w.drop (w.length - 2) = [w.getD (w.length - 2) 0, w.getD (w.length - 1) 0] := by
  rw [List.drop_eq_getElem_cons (by omega), show w.length - 2 + 1 = w.length - 1 by omega,
    drop_length_sub_one (by omega), List.getD_eq_getElem (n := w.length - 2) _ _ (by omega)]

theorem getElem?_slice {i j k : Nat} (hk : i + k < j) : (slice w i j)[k]? = w[i + k]? := by
  rw [slice, List.getElem?_drop, List.getElem?_take_of_lt hk]

/-! ### check_header -/

/-- The outcome of EXTRACT once the checksum of the bytes `b` is right: that of check_header, or the payload `d`. -/
def headerVerdict (a f : Byte) (b d : List Byte) : Except ErrCode (List Byte) :=
  match checkHeader a f b with
  | some e => .error e
  | none => .ok d

theorem headerVerdict_of_address_ne (ha : b.getD 0 0 ≠ a) :
    headerVerdict a f b d = .error .mismatchAddress := by
  rw [headerVerdict, checkHeader, if_pos ha]

theorem headerVerdict_of_exception (ha : b.getD 0 0 = a) (hf : b.getD 1 0 = f ||| 0x80) (hne : f ||| 0x80 ≠ f) :
    headerVerdict a f b d = .error .deviceException := by
  rw [headerVerdict, checkHeader, if_neg (not_not.2 ha), if_pos (hf ▸ hne), if_pos hf]

theorem headerVerdict_of_function_ne (ha : b.getD 0 0 = a) (hf : b.getD 1 0 ≠ f) (hx : b.getD 1 0 ≠ f ||| 0x80) :
    headerVerdict a f b d = .error .mismatchFunction := by
  rw [headerVerdict, checkHeader, if_neg (not_not.2 ha), if_pos hf, if_neg hx]

theorem headerVerdict_of_header (ha : b.getD 0 0 = a) (hf : b.getD 1 0 = f) : headerVerdict a f b d = .ok d := by
  rw [headerVerdict, checkHeader, if_neg (not_not.2 ha), if_neg (not_not.2 hf)]

/-! ### EXTRACT.RTU -/

theorem extractRtu_of_crc (hlen : 4 ≤ w.length)
    (hc : w.drop (w.length - 2) = crcBytes (w.take (w.length - 2))) :
    extractRtu a f w = headerVerdict a f w (slice w 2 (w.length - 2)) := by
  rw [extractRtu, if_neg (Nat.not_lt.2 hlen), if_neg (not_not.2 hc)]
  rfl

theorem extractRtu_of_checksum_ne (hlen : 4 ≤ w.length)
    (hc : w.drop (w.length - 2) ≠ crcBytes (w.take (w.length - 2))) : extractRtu a f w = .error .frameChecksum := by
  rw [extractRtu, if_neg (Nat.not_lt.2 hlen), if_pos hc]

/-- A frame that ends with its own CRC has CRC 0 (40_checksum R135(a)), so any other fails the check. -/
theorem extractRtu_of_crc16_ne_zero (hlen : 4 ≤ w.length) (hw : crc16 w ≠ 0) :
    extractRtu a f w = .error .frameChecksum := by
  refine extractRtu_of_checksum_ne hlen fun hc => hw ?_
  rw [← List.take_append_drop (w.length - 2) w, hc]
  exact crcResidueIsZero _

theorem extractRtu_rtuFrame (a f a' f' : Byte) (d : List Byte) :
    extractRtu a f (rtuFrame a' f' d) = headerVerdict a f (body a' f' d) d := by
  have hn : (rtuFrame a' f' d).length - 2 = (body a' f' d).length := by simp
  have htake : (rtuFrame a' f' d).take (body a' f' d).length = body a' f' d := List.take_left
  have hdrop : (rtuFrame a' f' d).drop (body a' f' d).length = crcBytes (body a' f' d) := List.drop_left
  rw [extractRtu_of_crc (by simp) (by rw [hn, htake, hdrop]), hn, slice, htake]
  rfl

/-! ### EXTRACT.ASCII -/

theorem extractAscii_of_header_ne (hlen : 9 ≤ w.length) (hc : w.getD 0 0 ≠ charColon) :
    extractAscii a f w = .error .frameHeader := by
  rw [extractAscii, if_neg (Nat.not_lt.2 hlen), if_pos hc]

theorem extractAscii_of_footer_ne (hlen : 9 ≤ w.length) (hc : w.getD 0 0 = charColon)
    (hend : w.drop (w.length - 2) ≠ footer) : extractAscii a f w = .error .frameFooter := by
  rw [extractAscii, if_neg (Nat.not_lt.2 hlen), if_neg (not_not.2 hc), if_pos hend]

theorem extractAscii_of_odd (hlen : 9 ≤ w.length) (hc : w.getD 0 0 = charColon)
    (hend : w.drop (w.length - 2) = footer) (hodd : (w.length - 3) % 2 ≠ 0) :
    extractAscii a f w = .error .frameOdd := by
  rw [extractAscii, if_neg (Nat.not_lt.2 hlen), if_neg (not_not.2 hc), if_neg (not_not.2 hend), if_pos hodd]

/-- Behind the delimiters stands the decoding of R167: the bytes of the hex field, or 0x14. -/
theorem extractAscii_of_delimiters (hlen : 9 ≤ w.length) (hc : w.getD 0 0 = charColon)
    (hend : w.drop (w.length - 2) = footer) (heven : (w.length - 3) % 2 = 0) :
    extractAscii a f w = (hexdec (slice w 1 (w.length - 2))).elim (.error .frameHex) (extractDecoded a f) := by
  rw [extractAscii, if_neg (Nat.not_lt.2 hlen), if_neg (not_not.2 hc), if_neg (not_not.2 hend),
    if_neg (not_not.2 heven)]
  cases hexdec (slice w 1 (w.length - 2)) <;> rfl

theorem extractAscii_delimited (hlen : 6 ≤ h.length) (heven : h.length % 2 = 0) :
    extractAscii a f (charColon :: (h ++ footer)) = (hexdec h).elim (.error .frameHex) (extractDecoded a f) := by
  have hn : (charColon :: (h ++ footer)).length - 2 = h.length + 1 := by simp
  have hslice : slice (charColon :: (h ++ footer)) 1 (h.length + 1) = h := by simp [slice]
  rw [extractAscii_of_delimiters (by simp; omega) rfl (by rw [hn]; simp) (by simpa using heven), hn, hslice]

theorem extractAscii_hexenc (hb : 3 ≤ b.length) :
    extractAscii a f (charColon :: (hexenc b ++ footer)) = extractDecoded a f b := by
  rw [extractAscii_delimited (by simp; omega) (by simp), hexdec_hexenc]
  rfl

theorem extractDecoded_of_lrc (hb : b.drop (b.length - 1) = [lrc (b.take (b.length - 1))]) :
    extractDecoded a f b = headerVerdict a f b (slice b 2 (b.length - 1)) := by
  rw [extractDecoded, if_neg (not_not.2 hb)]
  rfl

theorem extractDecoded_of_checksum_ne (hb : b.drop (b.length - 1) ≠ [lrc (b.take (b.length - 1))]) :
    extractDecoded a f b = .error .frameChecksum :=
  if_pos hb

/-- The LRC makes the sum of all bytes 0. -/
theorem lrc_append_lrc (b : List Byte) : lrc (b ++ [lrc b]) = 0 := by
  have hsum : byteSum (b ++ [lrc b]) = byteSum b + lrc b := List.foldl_append
  rw [lrc, hsum, lrc, lrcOfSum_eq_neg, lrcOfSum_eq_neg, add_neg_cancel, neg_zero]

/-- Bytes that end with their own LRC have LRC 0, so any others fail the check. -/
theorem extractDecoded_of_lrc_ne_zero (hb : lrc b ≠ 0) : extractDecoded a f b = .error .frameChecksum := by
  refine extractDecoded_of_checksum_ne fun hc => hb ?_
  rw [← List.take_append_drop (b.length - 1) b, hc]
  exact lrc_append_lrc _

theorem asciiFrame_eq (a f : Byte) (d : List Byte) :
    asciiFrame a f d = charColon :: (hexenc (body a f d ++ [lrc (body a f d)]) ++ footer) := by
  rw [asciiFrame, hexenc_append]

theorem extractAscii_asciiFrame (a f a' f' : Byte) (d : List Byte) :
    extractAscii a f (asciiFrame a' f' d) = headerVerdict a f (body a' f' d) d := by
  have hn : (body a' f' d ++ [lrc (body a' f' d)]).length - 1 = (body a' f' d).length := by simp
  rw [asciiFrame_eq, extractAscii_hexenc (by simp), extractDecoded_of_lrc (by rw [hn, List.take_left, List.drop_left]),
    hn, slice, List.take_left]
  rfl

/-- The hex digits of 30_encoding R102, as ranges. -/
theorem range_of_mem_hexChars {c : Byte} (hc : c ∈ hexChars) :
    (0x30 ≤ c.toNat ∧ c.toNat ≤ 0x39) ∨ (0x41 ≤ c.toNat ∧ c.toNat ≤ 0x46) := by
  revert c; decide

theorem hexdec_slice_eq_none {i j k : Nat} (hik : i ≤ k) (hkj : k < j) (hk : k < w.length)
    (hc : w.getD k 0 ∉ hexChars) : hexdec (slice w i j) = none := by
  rw [← Option.not_isSome_iff_eq_none, isSome_hexdec_iff]
  rintro ⟨-, hall⟩
  refine hc (hall _ (List.mem_of_getElem? (i := k - i) ?_))
  rw [getElem?_slice (by omega), Nat.add_sub_cancel' hik, List.getElem?_eq_getElem hk, List.getD_eq_getElem _ _ hk]

end Sys2Proof.Machine

/-! # The frame commands

What EMBED and EXTRACT leave, by the argument checks of 41_frame_codec R160, the fit test of R163 and R164 and the
verdict on the received bytes. -/

namespace Sys2Proof.Machine

variable {s : State} {i : Instr} {b d w : List Byte} {e : ErrCode}

/-! ### The argument checks -/

theorem State.checkArgs_of_saddr (ha : 247 < s.saddr.toNat) : s.checkArgs = some .argAddress := if_pos ha

theorem State.checkArgs_of_fcode (ha : s.saddr.toNat ≤ 247) (hf : s.fcode.toNat < 1 ∨ 127 < s.fcode.toNat) :
    s.checkArgs = some .argFunction := by
  rw [State.checkArgs, if_neg (Nat.not_lt.2 ha), if_pos hf]

theorem State.checkArgs_of_len (ha : s.saddr.toNat ≤ 247) (hf : 1 ≤ s.fcode.toNat) (hf' : s.fcode.toNat ≤ 127)
    (hl : s.params.bufBytes < s.len.toNat) : s.checkArgs = some .argLength := by
  rw [State.checkArgs, if_neg (Nat.not_lt.2 ha), if_neg (by omega), if_pos (State.lenTooLong_iff.2 hl)]

/-- A frame command whose argument checks fail does nothing else. -/
theorem exec_of_checkArgs (hi : i ∈ [Instr.embedRtu, .embedAscii, .extractRtu, .extractAscii])
    (he : s.checkArgs = some e) : exec i s = .next (s.discardedWith e.byte) := by
  have hembed (w) : s.embed w = s.discardedWith e.byte := by rw [State.embed, he]; rfl
  have hextract (r) : s.extract r = s.discardedWith e.byte := by simp only [State.extract, he]; rfl
  simp only [List.mem_cons, List.not_mem_nil, or_false] at hi
  obtain rfl | rfl | rfl | rfl := hi
  · exact congrArg _ (hembed _)
  · exact congrArg _ (hembed _)
  · exact congrArg _ (hextract _)
  · exact congrArg _ (hextract _)

/-- Settles O20: the three checks, each where the ones before it pass. -/
theorem frameArgumentsAreCheckedInOrder : Obligations.FrameArgumentsAreCheckedInOrder := fun _ _ hi =>
  ⟨fun ha => exec_of_checkArgs hi (State.checkArgs_of_saddr ha),
    fun ha hf => exec_of_checkArgs hi (State.checkArgs_of_fcode ha hf),
    fun ha hf hf' hl => exec_of_checkArgs hi (State.checkArgs_of_len ha hf hf' hl)⟩

/-- A valid function code has bit 7 clear, so the exception code is another one (R168). -/
theorem State.ArgsValid.exception_ne (h : s.ArgsValid) : s.functionByte ||| 0x80 ≠ s.functionByte := by
  obtain ⟨-, -, hf, -⟩ := h
  have hbit : s.functionByte.getLsbD 7 = false := by
    rw [State.functionByte, BitVec.getLsbD_extractLsb']
    exact Nat.testBit_lt_two_pow (Nat.lt_succ_of_le hf)
  intro heq
  have hset : (s.functionByte ||| 0x80).getLsbD 7 = true := by rw [BitVec.getLsbD_or]; exact Bool.or_true _
  rw [heq, hbit] at hset
  cases hset

/-! ### EMBED -/

/-- R163 and R164 after the argument checks, for a frame `w` of `n` bytes. -/
theorem exec_of_embed {n : Nat} (hargs : s.ArgsValid) (hin : s.InputIs d) (hx : exec i s = .next (s.embed w))
    (hn : w.length = n) :
    (n ≤ s.params.bufBytes →
      ∃ o, exec i s = .next { s with outBuf := o, outLen := BitVec.ofNat 32 n, err := 0x00,
                                     busy := false, done := true } ∧
        OverwrittenBy s.outBuf o w) ∧
    (s.params.bufBytes < n → exec i s = .next (s.discardedWith 0x04)) := by
  subst hn
  rw [hx, State.embed, hargs.checkArgs_eq, hin.readIn_eq]
  refine ⟨fun hfit => ⟨_, ?_, Memory.overwritten_write _ _⟩, fun hfit => ?_⟩
  · rw [if_neg (Nat.not_lt.2 hfit)]; rfl
  · rw [if_pos hfit]; rfl

theorem exec_embedRtu_of_inputIs (hin : s.InputIs d) :
    exec .embedRtu s = .next (s.embed (rtuFrame s.addressByte s.functionByte d)) := by
  rw [exec, execEmbedRtu, hin.inBytes_eq]

theorem exec_embedAscii_of_inputIs (hin : s.InputIs d) :
    exec .embedAscii s = .next (s.embed (asciiFrame s.addressByte s.functionByte d)) := by
  rw [exec, execEmbedAscii, hin.inBytes_eq]

/-- Settles O21: the frame of R161, of the length the fit test takes. -/
theorem embedRtuBuildsTheFrame : Obligations.EmbedRtuBuildsTheFrame := by
  rintro s d w c hargs hin rfl rfl
  exact exec_of_embed hargs hin (exec_embedRtu_of_inputIs hin) (length_rtuFrame _ _ _)

/-- Settles O22: the frame of R162, of the length the fit test takes. -/
theorem embedAsciiBuildsTheFrame : Obligations.EmbedAsciiBuildsTheFrame := by
  rintro s d w hargs hin rfl
  exact exec_of_embed hargs hin (exec_embedAscii_of_inputIs hin) (length_asciiFrame _ _ _)

/-! ### EXTRACT -/

theorem exec_extractRtu_of_inputIs (hin : s.InputIs w) :
    exec .extractRtu s = .next (s.extract (extractRtu s.addressByte s.functionByte w)) := by
  rw [exec, execExtractRtu, hin.inBytes_eq]

theorem exec_extractAscii_of_inputIs (hin : s.InputIs w) :
    exec .extractAscii s = .next (s.extract (extractAscii s.addressByte s.functionByte w)) := by
  rw [exec, execExtractAscii, hin.inBytes_eq]

theorem State.extract_error (hargs : s.ArgsValid) (hin : s.InputIs w) (e : ErrCode) :
    s.extract (.error e) = s.discardedWith e.byte := by
  simp only [State.extract, hargs.checkArgs_eq, hin.readIn_eq]; rfl

theorem State.extract_ok (hargs : s.ArgsValid) (hin : s.InputIs w) (d : List Byte) :
    s.extract (.ok d) = (s.putOut d).complete .ok := by
  simp only [State.extract, hargs.checkArgs_eq, hin.readIn_eq]

theorem exec_extractRtu_of_error (hargs : s.ArgsValid) (hin : s.InputIs w)
    (he : extractRtu s.addressByte s.functionByte w = .error e) :
    exec .extractRtu s = .next (s.discardedWith e.byte) := by
  rw [exec_extractRtu_of_inputIs hin, he, State.extract_error hargs hin]

theorem exec_extractAscii_of_error (hargs : s.ArgsValid) (hin : s.InputIs w)
    (he : extractAscii s.addressByte s.functionByte w = .error e) :
    exec .extractAscii s = .next (s.discardedWith e.byte) := by
  rw [exec_extractAscii_of_inputIs hin, he, State.extract_error hargs hin]

/-- R168 for both modes, when the bytes `b` with a right checksum hold a payload `d` of `n` bytes. -/
theorem exec_of_headerVerdict {n : Nat} (hargs : s.ArgsValid) (hin : s.InputIs w)
    (hx : exec i s = .next (s.extract (headerVerdict s.addressByte s.functionByte b d))) (hn : d.length = n) :
    (b.getD 0 0 ≠ s.addressByte → exec i s = .next (s.discardedWith 0x20)) ∧
    (b.getD 0 0 = s.addressByte → b.getD 1 0 = s.functionByte ||| 0x80 →
      exec i s = .next (s.discardedWith 0x30)) ∧
    (b.getD 0 0 = s.addressByte → b.getD 1 0 ≠ s.functionByte → b.getD 1 0 ≠ s.functionByte ||| 0x80 →
      exec i s = .next (s.discardedWith 0x21)) ∧
    (b.getD 0 0 = s.addressByte → b.getD 1 0 = s.functionByte →
      ∃ o, exec i s = .next { s with outBuf := o, outLen := BitVec.ofNat 32 n, err := 0x00,
                                     busy := false, done := true } ∧
        OverwrittenBy s.outBuf o d) := by
  subst hn
  rw [hx]
  refine ⟨fun ha => ?_, fun ha hf => ?_, fun ha hf hf' => ?_, fun ha hf => ⟨_, ?_, Memory.overwritten_write _ _⟩⟩
  · rw [headerVerdict_of_address_ne ha, State.extract_error hargs hin]; rfl
  · rw [headerVerdict_of_exception ha hf hargs.exception_ne, State.extract_error hargs hin]; rfl
  · rw [headerVerdict_of_function_ne ha hf hf', State.extract_error hargs hin]; rfl
  · rw [headerVerdict_of_header ha hf, State.extract_ok hargs hin]; rfl

/-- Settles O23: length and CRC, then R168 on the frame itself. -/
theorem extractRtuReportsTheFirstFailure : Obligations.ExtractRtuReportsTheFirstFailure := by
  rintro s w n c a f hargs hin rfl rfl rfl rfl
  have hcrc (hlen : 4 ≤ w.length) : w.drop (w.length - 2) = crcBytes (w.take (w.length - 2)) ↔
      w.getD (w.length - 2) 0 = (crc16 (w.take (w.length - 2))).extractLsb' 0 8 ∧
      w.getD (w.length - 1) 0 = (crc16 (w.take (w.length - 2))).extractLsb' 8 8 := by
    rw [drop_length_sub_two (by omega), crcBytes, crcWire, List.cons_eq_cons, List.cons_eq_cons]
    simp
  refine ⟨fun hlen => exec_extractRtu_of_error hargs hin (if_pos hlen), fun hlen hc => ?_, fun hlen hlow hhigh => ?_⟩
  · exact exec_extractRtu_of_error hargs hin (extractRtu_of_checksum_ne hlen
      ((hcrc hlen).not.2 (not_and_or.2 hc)))
  · have hx := exec_extractRtu_of_inputIs hin
    rw [extractRtu_of_crc hlen ((hcrc hlen).2 ⟨hlow, hhigh⟩)] at hx
    exact exec_of_headerVerdict hargs hin hx ((length_slice _ _ _).trans (by omega))

/-- Settles O24: each check of steps 1 and 2, and the alphabet of the decoding. -/
theorem extractAsciiChecksTheDelimitersInOrder : Obligations.ExtractAsciiChecksTheDelimitersInOrder := by
  rintro s w n hargs hin rfl
  have hfooter (hlen : 9 ≤ w.length) : w.drop (w.length - 2) = footer ↔
      w.getD (w.length - 2) 0 = 0x0D ∧ w.getD (w.length - 1) 0 = 0x0A := by
    rw [drop_length_sub_two (by omega), footer, List.cons_eq_cons, List.cons_eq_cons]
    simp
  refine ⟨fun hlen => exec_extractAscii_of_error hargs hin (if_pos hlen),
    fun hlen hcolon => exec_extractAscii_of_error hargs hin (extractAscii_of_header_ne hlen hcolon),
    fun hlen hcolon => ⟨fun hends => ?_, fun hcr hlf => ⟨fun hodd => ?_, fun heven hbad => ?_⟩⟩⟩
  · have hend := (hfooter hlen).not.2 (not_and_or.2 hends)
    exact exec_extractAscii_of_error hargs hin (extractAscii_of_footer_ne hlen hcolon hend)
  · have hend := (hfooter hlen).2 ⟨hcr, hlf⟩
    exact exec_extractAscii_of_error hargs hin (extractAscii_of_odd hlen hcolon hend hodd)
  · have hend := (hfooter hlen).2 ⟨hcr, hlf⟩
    obtain ⟨j, hj, hjn, hc⟩ := hbad
    have hnone := hexdec_slice_eq_none hj hjn (by omega) (mt range_of_mem_hexChars hc)
    refine exec_extractAscii_of_error (e := .frameHex) hargs hin ?_
    rw [extractAscii_of_delimiters hlen hcolon hend heven, hnone]
    rfl

/-- Settles O25: the hex field is decoded to its bytes, then the LRC and R168 on those. -/
theorem extractAsciiChecksTheDecodedBytes : Obligations.ExtractAsciiChecksTheDecodedBytes := by
  rintro s b m a f hargs hin rfl hm rfl rfl
  have hlrc : b.drop (b.length - 1) = [lrc (b.take (b.length - 1))] ↔
      b.getD (b.length - 1) 0 = lrc (b.take (b.length - 1)) := by
    rw [drop_length_sub_one (by omega), List.singleton_inj]
  have hx : exec .extractAscii s = .next (s.extract (extractDecoded s.addressByte s.functionByte b)) := by
    rw [← extractAscii_hexenc hm]
    exact exec_extractAscii_of_inputIs hin
  constructor
  · intro hb
    rw [hx, extractDecoded_of_checksum_ne (hlrc.not.2 hb), State.extract_error hargs hin]
    rfl
  · intro hb
    rw [extractDecoded_of_lrc (hlrc.2 hb)] at hx
    exact exec_of_headerVerdict hargs hin hx ((length_slice _ _ _).trans (by omega))

/-! ### Frames that EMBED builds -/

/-- Settles O29: in both modes a frame passes the checks up to R168, whose clauses are the three cases. -/
theorem mismatchedResponsesAreReported : Obligations.MismatchedResponsesAreReported := by
  intro s i a f d w hargs hin hmode
  have hx : exec i s = .next (s.extract (headerVerdict s.addressByte s.functionByte (body a f d) d)) := by
    simp only [List.mem_cons, List.not_mem_nil, or_false, Prod.mk.injEq] at hmode
    obtain ⟨rfl, rfl⟩ | ⟨rfl, rfl⟩ := hmode
    · rw [exec_extractRtu_of_inputIs hin, extractRtu_rtuFrame]
    · rw [exec_extractAscii_of_inputIs hin, extractAscii_asciiFrame]
  obtain ⟨haddress, hexception, hfunction, -⟩ := exec_of_headerVerdict hargs hin hx rfl
  exact ⟨haddress, fun ha hf => ⟨hexception ha, hfunction ha hf⟩⟩

/-- A successful EMBED has put its frame in OUT. -/
theorem State.embed_of_err_eq_zero (hargs : s.ArgsValid) (hin : s.InputIs d) (hok : (s.embed w).err = 0x00) :
    w.length ≤ s.params.bufBytes ∧ s.embed w = (s.putOut w).complete .ok := by
  rw [State.embed, hargs.checkArgs_eq, hin.readIn_eq] at hok ⊢
  by_cases hfit : s.params.bufBytes < w.length
  · rw [if_pos hfit] at hok
    cases hok
  · exact ⟨Nat.not_lt.1 hfit, if_neg hfit⟩

/-- IN and LEN are a copy of OUT and OUT_LEN, to which `w` was written. -/
theorem State.inputIs_of_copy {u : State} (hw : w.length < 2 ^ 32) (hlen : u.len = (s.putOut w).outLen)
    (hcopy : ∀ a, a < (s.putOut w).outLen.toNat → Memory.get u.inBuf a = Memory.get (s.putOut w).outBuf a) :
    u.InputIs w := by
  have hn : (s.putOut w).outLen.toNat = w.length := by
    rw [State.putOut_outLen, BitVec.toNat_ofNat, Nat.mod_eq_of_lt hw]
  refine ⟨by rw [hlen, hn], fun a ha => ?_⟩
  rw [hcopy a (hn ▸ ha), State.putOut_outBuf, Memory.overwritten_write _ _ a, if_pos ha]

/-- Settles O27: the copy is the frame as EXTRACT's operand, and the operand registers are those of its header. -/
theorem extractOfEmbedIsThePayload : Obligations.ExtractOfEmbedIsThePayload := by
  intro s t u d e x hmode hlegal hargs hin he hok hparams hsaddr hfcode hlen hcopy
  obtain ⟨w, hembed, hextract⟩ : ∃ w, exec e s = .next (s.embed w) ∧ (u.InputIs w → exec x u = .next (u.extract
      (headerVerdict u.addressByte u.functionByte (body s.addressByte s.functionByte d) d))) := by
    simp only [List.mem_cons, List.not_mem_nil, or_false, Prod.mk.injEq] at hmode
    obtain ⟨rfl, rfl⟩ | ⟨rfl, rfl⟩ := hmode
    · exact ⟨_, exec_embedRtu_of_inputIs hin, fun hu => by rw [exec_extractRtu_of_inputIs hu, extractRtu_rtuFrame]⟩
    · exact ⟨_, exec_embedAscii_of_inputIs hin, fun hu => by
        rw [exec_extractAscii_of_inputIs hu, extractAscii_asciiFrame]⟩
  rw [hembed] at he
  cases he
  obtain ⟨hfit, ht⟩ := State.embed_of_err_eq_zero hargs hin hok
  rw [ht] at hlen hcopy
  obtain ⟨-, -, -, hmax, -⟩ := hlegal
  have hu : u.InputIs w := State.inputIs_of_copy (by omega) hlen hcopy
  obtain ⟨ha, hf, hf', hd⟩ := hargs
  have hargs' : u.ArgsValid := ⟨hsaddr ▸ ha, hfcode ▸ hf, hfcode ▸ hf', by rw [hu.1, hparams]; exact hfit⟩
  obtain ⟨-, -, -, hpayload⟩ := exec_of_headerVerdict hargs' hu (hextract hu) rfl
  obtain ⟨o, hx, ho⟩ := hpayload (congrArg (·.extractLsb' 0 8) hsaddr.symm) (congrArg (·.extractLsb' 0 8) hfcode.symm)
  rw [hin.1] at hd
  exact ⟨_, hx, rfl, by rw [BitVec.toNat_ofNat, Nat.mod_eq_of_lt (by omega)], fun a ha => (ho a).trans (if_pos ha)⟩

end Sys2Proof.Machine

/-! # One flipped bit

A flip is a change of one byte. Both checksums of a frame with its own checksum after it are 0, and a change of one byte
moves them from 0 (41_frame_codec R172). -/

namespace Sys2Proof.Machine

/-! ### flipBit -/

theorem length_flipBit (w : List Byte) (j k : Nat) : (flipBit w j k).length = w.length := List.length_set

theorem xor_bit_ne (b : Byte) {k : Nat} (hk : k < 8) : b ^^^ ((1 : Byte) <<< k) ≠ b := by
  intro h
  have hbit := congrArg (·.getLsbD k) h
  simp [hk] at hbit

/-- A flip changes the byte it is in and no other. -/
theorem exists_flipBit_eq {w : List Byte} {j k : Nat} (hj : j < w.length) (hk : k < 8) :
    ∃ u b c v, b ≠ c ∧ w = u ++ b :: v ∧ flipBit w j k = u ++ c :: v := by
  refine ⟨w.take j, w[j], w[j] ^^^ ((1 : Byte) <<< k), w.drop (j + 1), (xor_bit_ne _ hk).symm, ?_, ?_⟩
  · rw [← List.drop_eq_getElem_cons hj, List.take_append_drop]
  · rw [flipBit, List.getD_eq_getElem _ _ hj, List.set_eq_take_append_cons_drop, if_pos hj]

theorem flipBit_append_left {u : List Byte} (v : List Byte) {j : Nat} (k : Nat) (hj : j < u.length) :
    flipBit (u ++ v) j k = flipBit u j k ++ v := by
  rw [flipBit, flipBit, List.getD_append _ _ _ _ hj, List.set_append_left _ _ hj]

theorem flipBit_append_right (u v : List Byte) (j k : Nat) :
    flipBit (u ++ v) (u.length + j) k = u ++ flipBit v j k := by
  rw [flipBit, flipBit, List.getD_append_right _ _ _ _ (Nat.le_add_right _ _),
    List.set_append_right _ _ (Nat.le_add_right _ _), Nat.add_sub_cancel_left]

theorem flipBit_cons_succ (b : Byte) (w : List Byte) (j k : Nat) :
    flipBit (b :: w) (j + 1) k = b :: flipBit w j k := rfl

/-- Both checksums see a flip. -/
theorem checksums_flipBit_ne {w : List Byte} {j k : Nat} (hj : j < w.length) (hk : k < 8) :
    lrc (flipBit w j k) ≠ lrc w ∧ crc16 (flipBit w j k) ≠ crc16 w := by
  obtain ⟨u, b, c, v, hne, hw, hflip⟩ := exists_flipBit_eq hj hk
  rw [hflip, hw]
  exact checksumsSeeEveryOneByteChange u v c b hne.symm

theorem flipBit_ne {w : List Byte} {j k : Nat} (hj : j < w.length) (hk : k < 8) : flipBit w j k ≠ w :=
  fun h => (checksums_flipBit_ne hj hk).1 (congrArg lrc h)

/-! ### One digit of the hex code -/

theorem hexenc_injective : Function.Injective hexenc := fun s t h =>
  Option.some.inj (by rw [← hexdec_hexenc s, h, hexdec_hexenc])

theorem exists_cons_of_hexenc_eq_cons {s q : List Byte} {x : Byte} (hs : hexenc s = x :: q) :
    ∃ b r, s = b :: r ∧ x = hexDigit (b.extractLsb' 4 4) ∧ q = hexDigit (b.extractLsb' 0 4) :: hexenc r := by
  cases s with
  | nil => cases hs
  | cons b r => cases hs; exact ⟨b, r, rfl, rfl, rfl⟩

/-- Encodings that differ in one digit are of strings that differ in one byte. -/
theorem exists_differ_of_hexenc {p q : List Byte} {x y : Byte} (hxy : x ≠ y) {s t : List Byte}
    (hs : hexenc s = p ++ x :: q) (ht : hexenc t = p ++ y :: q) :
    ∃ u b c v, b ≠ c ∧ s = u ++ b :: v ∧ t = u ++ c :: v := by
  induction p using List.twoStepInduction generalizing s t with
  | nil =>
    obtain ⟨b, r, rfl, rfl, rfl⟩ := exists_cons_of_hexenc_eq_cons hs
    obtain ⟨c, r', rfl, rfl, hq⟩ := exists_cons_of_hexenc_eq_cons ht
    obtain ⟨-, hr⟩ := List.cons.inj hq
    exact ⟨[], b, c, r, fun h => hxy (by rw [h]), rfl, by rw [hexenc_injective hr]; rfl⟩
  | singleton z =>
    obtain ⟨b, r, rfl, rfl, hq⟩ := exists_cons_of_hexenc_eq_cons hs
    obtain ⟨c, r', rfl, -, hq'⟩ := exists_cons_of_hexenc_eq_cons ht
    obtain ⟨rfl, hr⟩ := List.cons.inj hq
    obtain ⟨rfl, hr'⟩ := List.cons.inj hq'
    exact ⟨[], b, c, r, fun h => hxy (by rw [h]), rfl, by rw [hexenc_injective (hr.symm.trans hr')]; rfl⟩
  | cons_cons z z' p ih _ =>
    obtain ⟨b, r, rfl, hz, hq⟩ := exists_cons_of_hexenc_eq_cons hs
    obtain ⟨c, r', rfl, hz', hq'⟩ := exists_cons_of_hexenc_eq_cons ht
    obtain ⟨hlow, hr⟩ := List.cons.inj hq
    obtain ⟨hlow', hr'⟩ := List.cons.inj hq'
    have hbc : [b] = [c] := hexenc_injective (by simp [← hz, ← hz', ← hlow, ← hlow'])
    obtain ⟨u, b', c', v, hne, rfl, rfl⟩ := ih hr.symm hr'.symm
    exact ⟨b :: u, b', c', v, hne, rfl, by rw [List.singleton_inj.1 hbc]; rfl⟩

/-! ### EXTRACT of a flipped frame -/

theorem crc16_rtuFrame (a f : Byte) (d : List Byte) : crc16 (rtuFrame a f d) = 0 :=
  crcResidueIsZero (body a f d)

/-- A flip anywhere in an RTU frame leaves a frame whose CRC is not 0. -/
theorem extractRtu_flipBit (a f a' f' : Byte) (d : List Byte) {j k : Nat} (hj : j < d.length + 4) (hk : k < 8) :
    extractRtu a f (flipBit (rtuFrame a' f' d) j k) = .error .frameChecksum := by
  have hlen : (rtuFrame a' f' d).length = d.length + 4 := length_rtuFrame _ _ _
  refine extractRtu_of_crc16_ne_zero (by rw [length_flipBit]; omega) fun hzero => ?_
  exact (checksums_flipBit_ne (hlen ▸ hj) hk).2 (hzero.trans (crc16_rtuFrame a' f' d).symm)

/-- A flip of a digit is no digit, or makes a digit of another byte, which the LRC sees. -/
theorem extractAscii_flipBit_digit (a f a' f' : Byte) (d : List Byte) {j k : Nat} (hj : j < 2 * d.length + 6)
    (hk : k < 8) :
    extractAscii a f (flipBit (asciiFrame a' f' d) (j + 1) k) = .error .frameHex ∨
    extractAscii a f (flipBit (asciiFrame a' f' d) (j + 1) k) = .error .frameChecksum := by
  have hlen : (hexenc (body a' f' d ++ [lrc (body a' f' d)])).length = 2 * d.length + 6 := by simp; omega
  have hsum : lrc (body a' f' d ++ [lrc (body a' f' d)]) = 0 := lrc_append_lrc _
  rw [asciiFrame_eq]
  generalize body a' f' d ++ [lrc (body a' f' d)] = b at hlen hsum
  rw [flipBit_cons_succ, flipBit_append_left _ _ (by omega),
    extractAscii_delimited (by rw [length_flipBit]; omega) (by rw [length_flipBit]; omega)]
  cases hdec : hexdec (flipBit (hexenc b) j k) with
  | none => exact .inl rfl
  | some b' =>
    obtain ⟨p, x, y, q, hxy, hold, hnew⟩ := exists_flipBit_eq (hlen ▸ hj) hk
    obtain ⟨u, c, c', v, hne, rfl, rfl⟩ := exists_differ_of_hexenc hxy hold ((hexenc_of_hexdec hdec).trans hnew)
    obtain ⟨hlrc, -⟩ := checksumsSeeEveryOneByteChange u v c c' hne
    exact .inr (extractDecoded_of_lrc_ne_zero (hsum ▸ hlrc.symm))

theorem extractAscii_flipBit_header (a f a' f' : Byte) (d : List Byte) {k : Nat} (hk : k < 8) :
    extractAscii a f (flipBit (asciiFrame a' f' d) 0 k) = .error .frameHeader :=
  extractAscii_of_header_ne (by rw [length_flipBit, length_asciiFrame]; omega) (xor_bit_ne charColon hk)

theorem extractAscii_flipBit_footer (a f a' f' : Byte) (d : List Byte) {j k : Nat} (hj : j < 2) (hk : k < 8) :
    extractAscii a f (flipBit (asciiFrame a' f' d) (2 * d.length + 7 + j) k) = .error .frameFooter := by
  rw [asciiFrame_eq, ← List.cons_append]
  have hlen : (charColon :: hexenc (body a' f' d ++ [lrc (body a' f' d)])).length = 2 * d.length + 7 := by
    simp; omega
  generalize hu : charColon :: hexenc (body a' f' d ++ [lrc (body a' f' d)]) = u at hlen
  have hn : (u ++ flipBit footer j k).length - 2 = u.length := by rw [List.length_append, length_flipBit]; rfl
  rw [← hlen, flipBit_append_right]
  refine extractAscii_of_footer_ne ?_ (hu ▸ rfl) ?_
  · rw [List.length_append, length_flipBit, length_footer]; omega
  · rw [hn, List.drop_left]
    exact flipBit_ne hj hk

/-- Settles O28: the header and the footer are compared as they stand, and the checksums see the rest. -/
theorem extractSeesEverySingleBitFlip : Obligations.ExtractSeesEverySingleBitFlip := by
  intro s a f d j k hargs hk
  refine ⟨fun hin hj => ?_, fun hin => ⟨?_, fun hj hj' => ?_, fun hj hj' => ?_⟩⟩
  · exact exec_extractRtu_of_error hargs hin (extractRtu_flipBit _ _ a f d (by omega) hk)
  · rintro rfl
    exact exec_extractAscii_of_error hargs hin (extractAscii_flipBit_header _ _ a f d hk)
  · obtain ⟨j, rfl⟩ := Nat.exists_eq_add_of_le hj
    exact exec_extractAscii_of_error hargs hin (extractAscii_flipBit_footer _ _ a f d (by omega) hk)
  · obtain ⟨j, rfl⟩ := Nat.exists_eq_add_of_le' hj
    exact (extractAscii_flipBit_digit _ _ a f d (by omega) hk).imp
      (exec_extractAscii_of_error hargs hin) (exec_extractAscii_of_error hargs hin)

end Sys2Proof.Machine

/-! # The timing gate

The silent period (42_timing_gate R201), what GATE_TX and RX_DONE do case by case (R204, R205, R209, R210), what can put
an exchange in flight (R206, R207), and how long a hold lasts when the host is idle (R215; log 3). -/

namespace Sys2Proof.Machine

variable {s t : State} {i : Instr} {e : Event} {p : Nat}

/-! ### The silent period -/

/-- The silent period is the least number of ticks that lasts 38.5 bit times (R201). -/
theorem silentTicks_le_iff {tickHz baud m : Nat} (hb : 0 < baud) :
    silentTicks tickHz baud ≤ m ↔ 77 * tickHz ≤ m * (2 * baud) := by
  have hceil : silentTicks tickHz baud = 77 * tickHz ⌈/⌉ (2 * baud) := rfl
  rw [hceil, ceilDiv_le_iff_le_mul (by omega), Nat.mul_comm m]

theorem silentTicks_le_max {tickHz baud : Nat} (hhz : tickHz ≤ 100000000) (hb : 0 < baud) :
    silentTicks tickHz baud ≤ 3850000000 :=
  (silentTicks_le_iff hb).2 (by omega)

/-- At a legal TICK_HZ the silent period fits SILENT's 32 bits. -/
theorem toNat_silentOf {q : Params} {b : Word} (hhz : q.tickHz ≤ 100000000) (hb : b ≠ 0) :
    (silentOf q b).toNat = silentTicks q.tickHz b.toNat := by
  have hmax := silentTicks_le_max hhz (by bv_omega : 0 < b.toNat)
  rw [silentOf, if_neg hb, BitVec.toNat_ofNat, Nat.mod_eq_of_lt (by omega)]

/-- Settles O34: the bound is the least-number property at the fastest clock and the slowest baud rate. -/
theorem silentIsTheCeilingOfThePeriod : Obligations.SilentIsTheCeilingOfThePeriod := by
  intro q b hl
  obtain ⟨-, -, -, -, -, -, -, hhz⟩ := hl
  refine ⟨rfl, fun hb => ?_⟩
  have hpos : 0 < b.toNat := by bv_omega
  exact ⟨silentTicks q.tickHz b.toNat, toNat_silentOf hhz hb, silentTicks_le_max hhz hpos, rfl,
    (silentTicks_le_iff hpos).1 le_rfl, fun _ => (silentTicks_le_iff hpos).2⟩

/-! ### GATE_TX and RX_DONE, case by case -/

/-- Eligibility, the end of the hold (R203). -/
theorem State.holding_eq_false_iff (s : State) (p : Nat) : s.holding p = false ↔
    (s.port p).hasRead = false ∨ (s.silent p).toNat ≤ (s.elapsed p).toNat := by
  rw [← Bool.not_eq_true, s.holding_iff, not_and_or, Bool.not_eq_true, Nat.not_lt]

theorem State.noteOverlap_of_inflight (h : (s.port p).inflight = true) :
    s.noteOverlap p = s.recordFault .overlap := if_pos h

theorem State.noteOverlap_of_quiet (h : (s.port p).inflight = false) : s.noteOverlap p = s :=
  if_neg (Bool.eq_false_iff.1 h)

/-- Writing a port's own state back changes nothing. -/
theorem State.setPort_port (s : State) (p : Nat) : s.setPort p (s.port p) = s := by
  by_cases hp : p < s.ports.length
  · rw [s.port_of_getElem (List.getElem?_eq_getElem hp), State.setPort, List.set_getElem_self]
  · exact s.port_setPort_absent _ (by omega)

/-- A grant on a port that is in flight already changes nothing. -/
theorem State.grant_of_inflight (h : (s.port p).inflight = true) : s.grant p = s := by
  have hport : { s.port p with inflight := true } = s.port p := by rw [← h]
  rw [s.grant_eq, hport, s.setPort_port]

theorem exec_gateTx_of_noSuchPort (h : s.noSuchPort p = true) :
    exec (.gateTx p) s = .next (s.complete .argPort) := by
  rw [exec, execGateTx, if_pos h]

theorem exec_rxDone_of_noSuchPort (h : s.noSuchPort p = true) :
    exec (.rxDone p) s = .next (s.complete .argPort) := by
  rw [exec, execRxDone, if_pos h]

section
variable (hp : s.noSuchPort p = false)
include hp

theorem exec_gateTx_of_baud_zero (hb : (s.port p).baud = 0) :
    exec (.gateTx p) s = .next (s.complete .argBaud) := by
  rw [exec, execGateTx, hp, if_neg Bool.false_ne_true, if_pos hb]

theorem exec_gateTx_of_holding (hb : (s.port p).baud ≠ 0) (hh : s.holding p = true) :
    exec (.gateTx p) s = .next s := by
  rw [exec, execGateTx, hp, if_neg Bool.false_ne_true, if_neg hb, if_pos hh]

theorem exec_gateTx_of_eligible (hb : (s.port p).baud ≠ 0) (hh : s.holding p = false) :
    exec (.gateTx p) s = .next (((s.noteOverlap p).grant p).complete .ok) := by
  rw [exec, execGateTx, hp, hh, if_neg Bool.false_ne_true, if_neg hb, if_neg Bool.false_ne_true]

theorem exec_rxDone_of_port : exec (.rxDone p) s = .next ((s.setPort p
    { s.port p with lastRead := s.time, hasRead := true, inflight := false }).complete .ok) := by
  rw [exec, execRxDone, hp, if_neg Bool.false_ne_true]

end

/-- Settles O31, case by case of R205; with nothing in flight there is no OVERLAP to note. -/
theorem gateTxHoldsThenGrants : Obligations.GateTxHoldsThenGrants := by
  intro s p
  refine ⟨fun hp => exec_gateTx_of_noSuchPort (decide_eq_true hp), fun q hp hq => ?_⟩
  obtain rfl := s.port_of_getElem hq
  have hport := (s.noSuchPort_eq_false_iff p).2 hp
  refine ⟨exec_gateTx_of_baud_zero hport, fun hb => ⟨fun hread hlt => ?_, fun hdue hquiet => ?_⟩⟩
  · exact exec_gateTx_of_holding hport hb ((s.holding_iff p).2 ⟨hread, hlt⟩)
  · rw [exec_gateTx_of_eligible hport hb ((s.holding_eq_false_iff p).2 hdue), State.noteOverlap_of_quiet hquiet]
    rfl

/-- Settles O32: OVERLAP is noted, and the grant leaves the port as it was. -/
theorem overlappingGateTxIsRecorded : Obligations.OverlappingGateTxIsRecorded := by
  intro s p q hp hq hb hfly hh
  obtain rfl := s.port_of_getElem hq
  rw [exec_gateTx_of_eligible ((s.noSuchPort_eq_false_iff p).2 hp) hb hh, State.noteOverlap_of_inflight hfly,
    State.grant_of_inflight (s := s.recordFault .overlap) hfly]
  rfl

/-- Settles O33: the check of the port, the stamp, and the row's match, mask and operand. -/
theorem rxDoneStampsThePort : Obligations.RxDoneStampsThePort := by
  refine ⟨fun s p => ⟨fun hp => exec_rxDone_of_noSuchPort (decide_eq_true hp), fun q hp hq => ?_⟩,
    fun _ _ => decode_operand_iff (f := .rxDone) (fun _ _ => Instr.rxDone.inj) rfl⟩
  obtain rfl := s.port_of_getElem hq
  exact exec_rxDone_of_port ((s.noSuchPort_eq_false_iff p).2 hp)

/-! ### What puts an exchange in flight -/

/-- Only a grant of GATE_TX on port `p` raises INFLIGHT of `p`; RX_DONE clears it and no other command writes it. -/
theorem CommandEffect.inflight_rise (c : CommandEffect s i t) (h0 : (s.port p).inflight = false)
    (h1 : (t.port p).inflight = true) : i = .gateTx p ∧ t.err = 0x00 ∧ s.holding p = false := by
  have hkeep (h : (t.port p).inflight = (s.port p).inflight) : False := by rw [h, h0] at h1; cases h1
  have hi : portOf i = some p := not_not.1 fun hp => hkeep (congrArg Port.inflight (c.port_eq hp))
  cases c with
  | grant _ _ hh => cases hi; exact ⟨rfl, rfl, hh⟩
  | stamp =>
    cases hi
    exact (hkeep (s.port_setPort_part Port.inflight h0.symm p)).elim
  | hold | fail | failArgs | failFrame | crc | lrc | crcBuf | lrcBuf | frame =>
    exact (hkeep (congrArg Port.inflight (s.port_congr (by simp) p))).elim

/-- A host write sets no port's INFLIGHT. -/
theorem State.writeReg_inflight (s : State) (r : Reg) (v : Word) (p : Nat) :
    ((s.writeReg r v).port p).inflight = (s.port p).inflight := by
  cases r with
  | baud q =>
    simp only [State.writeReg, State.unlessBusy]
    split
    · rfl
    · exact s.port_setPort_part Port.inflight (by rfl) p
  | cmd | saddr | fcode | len | inWord =>
    simp only [State.writeReg, State.unlessBusy]
    split <;> rfl
  | status | outLen | crc | lrc | timeLo | timeHi | params | tickhz | silent | pstat | lastReadLo | lastReadHi
    | outWord => rfl

theorem State.released_port (s : State) (p : Nat) : s.released.port p = Port.initial := by
  rw [State.port, List.getD_eq_getElem?_getD]
  exact List.getElem?_getD_replicate_default_eq _ _ _

/-- Whatever the event, INFLIGHT rises only by the engine's grant. -/
theorem EventEffect.inflight_rise (c : EventEffect s e t) (h0 : (s.port p).inflight = false)
    (h1 : (t.port p).inflight = true) :
    e = .engine ∧ s.busy = true ∧ decode s.curCmd = .ok (.gateTx p) ∧ t.err = 0x00 ∧ s.holding p = false := by
  have hkeep (h : (t.port p).inflight = (s.port p).inflight) : False := by rw [h, h0] at h1; cases h1
  cases c with
  | command h hd hx =>
    obtain ⟨rfl, herr, hh⟩ := (exec_effect hx).inflight_rise h0 h1
    exact ⟨rfl, h.2, hd, herr, hh⟩
  | read => exact (hkeep (by rw [s.readReg_frame]; rfl)).elim
  | write => exact (hkeep (s.writeReg_inflight _ _ p)).elim
  | released => rw [s.released_port] at h1; cases h1
  | held | notTaken | busError | illegal | noCommand | tick | assert | notAsserted => exact (hkeep rfl).elim

/-- Settles O36: INFLIGHT rises only by a grant, and a grant means that the hold is over. -/
theorem grantsComeOnlyAfterTheSilence : Obligations.GrantsComeOnlyAfterTheSilence := by
  intro s t e p hs h0 h1
  rw [step_sees] at hs
  obtain ⟨he, hb, hd, herr, hh⟩ := (handle_effect hs).inflight_rise h0 h1
  exact ⟨he, hb, hd, herr, (s.holding_eq_false_iff p).1 hh⟩

/-! ### The hold of an idle machine -/

/-- `s` after `n` ticks. -/
def State.afterTicks (s : State) (n : Nat) : State := { s with time := s.time + BitVec.ofNat 64 n }

/-- The ticks of SILENT that are left on port `p`. -/
def State.ticksLeft (s : State) (p : Nat) : Nat := (s.silent p).toNat - (s.elapsed p).toNat

theorem State.tick_afterTicks (s : State) (n : Nat) : s.tick.afterTicks n = s.afterTicks (n + 1) := by
  have htime : s.time + 1 + BitVec.ofNat 64 n = s.time + BitVec.ofNat 64 (n + 1) := by
    rw [BitVec.add_assoc, BitVec.add_comm 1, BitVec.ofNat_add]; rfl
  rw [State.afterTicks, State.tick_time, htime]
  rfl

/-- While a GATE_TX is held and nothing is scheduled, the clock ticks (log 3). -/
theorem step_of_waiting (h : s.inReset = false) (hnone : s.schedule = []) (hwait : s.waiting = true) :
    step s = .next s.tick := by
  have hidle : s.idleEvent = .tick := by simp [State.idleEvent, State.engineEnabled, hwait]
  rw [step_idle hnone, hidle, handle_tick h]

/-- A run whose first `n` states are in the hold begins with `n` ticks. -/
theorem run_of_waiting (n k : Nat) (h : s.inReset = false) (hnone : s.schedule = [])
    (hwait : ∀ j < n, (s.afterTicks j).waiting = true) :
    Host.Core.run core (k + n) s = Host.Core.run core k (s.afterTicks n) := by
  induction n generalizing s with
  | zero => simp [State.afterTicks]
  | succ n ih =>
    have hfirst : s.waiting = true := by simpa [State.afterTicks] using hwait 0 n.succ_pos
    have hrest (j : Nat) (hj : j < n) : (s.tick.afterTicks j).waiting = true := by
      rw [s.tick_afterTicks]; exact hwait (j + 1) (by omega)
    rw [← Nat.add_assoc, run_succ_of_step _ (step_of_waiting h hnone hfirst), ih (s := s.tick) h hnone hrest,
      s.tick_afterTicks]

section
variable {n : Nat} (hh : s.holding p = true) (hn : n ≤ s.ticksLeft p)
include hh hn

/-- Up to the end of the hold TIME − LAST_READ does not wrap: SILENT has 32 bits and TIME has 64. -/
theorem State.elapsed_afterTicks : ((s.afterTicks n).elapsed p).toNat = (s.elapsed p).toNat + n := by
  obtain ⟨-, hlt⟩ := (s.holding_iff p).1 hh
  have hadd : (s.afterTicks n).elapsed p = s.elapsed p + BitVec.ofNat 64 n := add_sub_right_comm _ _ _
  have hsilent := (s.silent p).isLt
  rw [State.ticksLeft] at hn
  rw [hadd, BitVec.toNat_add, BitVec.toNat_ofNat]
  omega

/-- The hold goes on for exactly the ticks left of it. -/
theorem State.holding_afterTicks : (s.afterTicks n).holding p = true ↔ n < s.ticksLeft p := by
  obtain ⟨hread, hlt⟩ := (s.holding_iff p).1 hh
  have hread' : ((s.afterTicks n).port p).hasRead = true := hread
  have hsilent : (s.afterTicks n).silent p = s.silent p := rfl
  rw [State.holding_iff, and_iff_right hread', State.elapsed_afterTicks hh hn, hsilent, State.ticksLeft]
  omega

end

/-- For a pending GATE_TX whose argument checks pass, WAIT is the condition of the hold (R205, 10_state R26). -/
theorem State.waiting_eq_holding (hb : s.busy = true) (hd : decode s.curCmd = .ok (.gateTx p))
    (hport : s.noSuchPort p = false) (hbaud : (s.port p).baud ≠ 0) : s.waiting = s.holding p := by
  simpa [State.waiting, hb, hd, hport] using fun _ => hbaud

/-- Settles O37: the clock ticks while the hold lasts, and at its end the engine's step is the grant. -/
theorem holdLastsTheRestOfTheSilence : Obligations.HoldLastsTheRestOfTheSilence := by
  intro s p ⟨hreset, hbusy⟩ hnone hd hwait
  obtain ⟨-, q, hq, hport, hbaud, hh⟩ := s.waiting_iff.1 hwait
  cases hd.symm.trans hq
  have hwaits (k : Nat) : (s.afterTicks k).waiting = (s.afterTicks k).holding p :=
    State.waiting_eq_holding (s := s.afterTicks k) hbusy hd hport hbaud
  have hheld (k : Nat) (hk : k < s.ticksLeft p) : (s.afterTicks k).waiting = true :=
    (hwaits k).trans ((State.holding_afterTicks hh hk.le).2 hk)
  have helig : (s.afterTicks (s.ticksLeft p)).holding p = false :=
    Bool.eq_false_iff.2 ((State.holding_afterTicks hh le_rfl).not.2 (Nat.lt_irrefl _))
  have hstep := (engineStepRunsTheDecodedCommand (s.afterTicks (s.ticksLeft p)) _ ⟨hreset, hbusy⟩ hd).2 hnone
    ((hwaits _).trans helig)
  have hgrant := exec_gateTx_of_eligible (s := s.afterTicks (s.ticksLeft p)) hport hbaud helig
  have hrun := run_of_waiting _ 1 hreset hnone hheld
  rw [Nat.add_comm, run_succ_of_step 0 (hstep.trans hgrant)] at hrun
  refine ⟨s.ticksLeft p, _, rfl, hrun, rfl, rfl, rfl, ?_, fun k hk => ⟨s.afterTicks k, ?_, hheld k hk⟩⟩
  · rw [(exec_effect hgrant).frame_eq]; rfl
  · have hbefore := run_of_waiting k 0 hreset hnone fun j hj => hheld j (hj.trans hk)
    rwa [Nat.zero_add] at hbefore

end Sys2Proof.Machine

/-! # Error completions and model faults

With which codes a command completes (60_exceptions R231, R236), what a completion with an error leaves of the state
before it (R237, R239), and that FAULTS only grows (R245). -/

namespace Sys2Proof.Machine

variable {s t : State} {i : Instr} {e : Event}

/-! ### Accept -/

/-- Settles O6: with BUSY = 0 the write to CMD is not dropped, and its effect is accept. -/
theorem cmdWriteAcceptsTheWord : Obligations.CmdWriteAcceptsTheWord := fun s w h =>
  step_write_of_idle (r := .cmd) h (s.accept w) (by decide) rfl rfl rfl

/-! ### The codes of a decoded command -/

/-- The codes of 60_exceptions R231 but for ERR_ILLEGAL_CMD, which only a word that decodes to no command gets. -/
def commandCodes : List Byte :=
  [0x00, 0x02, 0x03, 0x04, 0x05, 0x06, 0x10, 0x11, 0x12, 0x13, 0x14, 0x15, 0x20, 0x21, 0x30]

theorem ErrCode.byte_mem_commandCodes {c : ErrCode} (hc : c ≠ .illegalCmd) : c.byte ∈ commandCodes := by
  cases c with
  | illegalCmd => exact absurd rfl hc
  | _ => decide

section
variable {a f : Byte} {b d w : List Byte}

theorem checkArgs_ne_illegalCmd : s.checkArgs ≠ some .illegalCmd := by
  unfold State.checkArgs
  split_ifs <;> nofun

theorem checkHeader_ne_illegalCmd : checkHeader a f b ≠ some .illegalCmd := by
  unfold checkHeader
  split_ifs <;> nofun

theorem headerVerdict_ne_illegalCmd : headerVerdict a f b d ≠ .error .illegalCmd := by
  unfold headerVerdict
  split
  · next hc => rintro ⟨⟩; exact checkHeader_ne_illegalCmd hc
  · nofun

theorem extractRtu_ne_illegalCmd : extractRtu a f w ≠ .error .illegalCmd := by
  unfold extractRtu
  split_ifs
  · nofun
  · nofun
  · exact headerVerdict_ne_illegalCmd

theorem extractDecoded_ne_illegalCmd : extractDecoded a f b ≠ .error .illegalCmd := by
  unfold extractDecoded
  split_ifs
  · nofun
  · exact headerVerdict_ne_illegalCmd

theorem extractAscii_ne_illegalCmd : extractAscii a f w ≠ .error .illegalCmd := by
  unfold extractAscii
  split_ifs
  · nofun
  · nofun
  · nofun
  · nofun
  · split
    · nofun
    · exact extractDecoded_ne_illegalCmd

end

/-- A command has completed in `t`, with a code that a decoded command can give. -/
def State.EndedByCommand (t : State) : Prop := t.busy = false ∧ t.done = true ∧ t.err ∈ commandCodes

theorem State.endedByCommand_complete (s : State) {c : ErrCode} (hc : c ≠ .illegalCmd) :
    (s.complete c).EndedByCommand := ⟨rfl, rfl, c.byte_mem_commandCodes hc⟩

theorem State.endedByCommand_discard (s : State) {c : ErrCode} (hc : c ≠ .illegalCmd) :
    (s.discard c).EndedByCommand := ⟨rfl, rfl, c.byte_mem_commandCodes hc⟩

theorem State.endedByCommand_embed (s : State) (w : List Byte) : (s.embed w).EndedByCommand := by
  unfold State.embed
  split
  · next hc => exact s.endedByCommand_discard fun h => checkArgs_ne_illegalCmd (h ▸ hc)
  · split
    · exact s.readIn.endedByCommand_discard nofun
    · exact (s.readIn.putOut w).endedByCommand_complete nofun

theorem State.endedByCommand_extract (s : State) {r : Except ErrCode (List Byte)} (hr : r ≠ .error .illegalCmd) :
    (s.extract r).EndedByCommand := by
  unfold State.extract
  split
  · next hc => exact s.endedByCommand_discard fun h => checkArgs_ne_illegalCmd (h ▸ hc)
  · cases r with
    | error c => exact s.readIn.endedByCommand_discard fun h => hr (congrArg _ h)
    | ok d => exact (s.readIn.putOut d).endedByCommand_complete nofun

/-- Settles O7, command by command: only GATE_TX has a branch that does not complete. -/
theorem commandsCompleteWithOneKnownCode : Obligations.CommandsCompleteWithOneKnownCode := by
  intro i s
  cases i with
  | crcInit | crcFeed | lrcInit | lrcFeed => exact ⟨_, rfl, .inl (State.endedByCommand_complete _ nofun)⟩
  | crcBuf | lrcBuf =>
    simp only [exec, execCrcBuf, execLrcBuf]
    split
    · exact ⟨_, rfl, .inl (s.endedByCommand_discard nofun)⟩
    · exact ⟨_, rfl, .inl (State.endedByCommand_complete _ nofun)⟩
  | embedRtu | embedAscii => exact ⟨_, rfl, .inl (s.endedByCommand_embed _)⟩
  | extractRtu => exact ⟨_, rfl, .inl (s.endedByCommand_extract extractRtu_ne_illegalCmd)⟩
  | extractAscii => exact ⟨_, rfl, .inl (s.endedByCommand_extract extractAscii_ne_illegalCmd)⟩
  | gateTx p =>
    cases hp : s.noSuchPort p with
    | true => exact ⟨_, exec_gateTx_of_noSuchPort hp, .inl (s.endedByCommand_complete nofun)⟩
    | false =>
      by_cases hb : (s.port p).baud = 0
      · exact ⟨_, exec_gateTx_of_baud_zero hp hb, .inl (s.endedByCommand_complete nofun)⟩
      · cases hh : s.holding p with
        | true => exact ⟨_, exec_gateTx_of_holding hp hb hh, .inr ⟨p, rfl, hh, rfl⟩⟩
        | false => exact ⟨_, exec_gateTx_of_eligible hp hb hh, .inl (State.endedByCommand_complete _ nofun)⟩
  | rxDone p =>
    cases hp : s.noSuchPort p with
    | true => exact ⟨_, exec_rxDone_of_noSuchPort hp, .inl (s.endedByCommand_complete nofun)⟩
    | false => exact ⟨_, exec_rxDone_of_port hp, .inl (State.endedByCommand_complete _ nofun)⟩

/-! ### What a failure leaves -/

/-- What the engine's step can do when it completes the pending word with a nonzero code. -/
inductive FailureEffect (s : State) : State → Prop where
  /-- A command that does not write OUT, or an illegal word. -/
  | plain {c : ErrCode} (hi : ∀ i, decode s.curCmd = .ok i → writesOut i = false) : FailureEffect s (s.complete c)
  /-- A buffer command; `allDefined` is false when it read an undefined byte of IN before it failed. -/
  | buffer {i : Instr} {c : ErrCode} (allDefined : Bool) (hd : decode s.curCmd = .ok i) (hi : writesOut i = true) :
      FailureEffect s ((s.noteRead allDefined).discard c)

theorem CommandEffect.failureEffect (c : CommandEffect s i t) (hd : decode s.curCmd = .ok i) (hs : s.busy = true)
    (hb : t.busy = false) (he : t.err ≠ 0x00) : FailureEffect s t := by
  cases c with
  | hold => exact nomatch hs.symm.trans hb
  | fail hi => exact .plain fun j hj => by cases hd.symm.trans hj; exact hi
  | failArgs hi => exact .buffer true hd hi
  | failFrame hi => exact .buffer s.inDefined hd hi
  | crc | lrc | crcBuf | lrcBuf | frame | grant | stamp => exact absurd rfl he

theorem step_engine_failureEffect (h : s.Pending) (hs : step (s.sees .engine) = .next t) (hb : t.busy = false)
    (he : t.err ≠ 0x00) : FailureEffect s t := by
  rw [step_sees] at hs
  cases hd : decode s.curCmd with
  | ok i =>
    rw [handle_engine h hd] at hs
    exact (exec_effect hs).failureEffect hd h.2 hb he
  | error x =>
    rw [handle_engine_illegal h hd] at hs
    cases hs
    exact .plain fun i hi => nomatch hd.symm.trans hi

/-- Settles O40: a failure is complete alone, or the discard of a buffer command. -/
theorem failedCommandsDiscardTheirOutput : Obligations.FailedCommandsDiscardTheirOutput := by
  intro s t h hs hb he
  cases step_engine_failureEffect h hs hb he with
  | plain hi =>
    exact ⟨rfl, rfl, rfl, fun i hd hw => absurd ((hi i hd).symm.trans hw) Bool.false_ne_true, fun _ _ _ => rfl,
      fun _ => rfl⟩
  | buffer b hd hi =>
    refine ⟨by simp, by simp, by simp, fun _ _ _ => rfl, fun j hj hw => ?_, fun hnone => absurd hd (hnone _)⟩
    cases hd.symm.trans hj
    exact nomatch hi.symm.trans hw

/-- Settles O41: of a failed command only the record of UNDEF_READ goes beyond complete and discard. -/
theorem failedCommandsArePrecise : Obligations.FailedCommandsArePrecise := by
  intro s t h hs hb he
  cases step_engine_failureEffect h hs hb he with
  | plain => exact ⟨rfl, rfl, rfl⟩
  | buffer b => cases b <;> exact ⟨rfl, rfl, rfl⟩

/-! ### FAULTS -/

theorem State.answerWord_faults_cases (s : State) (m : Memory) (k : Nat) :
    (s.answerWord m k).faults = s.faults ∨ (s.answerWord m k).faults = s.faults.add .undefRead := by
  rw [State.answerWord, State.answer_eq, State.respond_faults, State.noteRead_faults]
  exact ite_eq_or_eq ..

/-- A read records UNDEF_READ at most. -/
theorem State.readReg_faults_cases (s : State) (r : Reg) :
    (s.readReg r).faults = s.faults ∨ (s.readReg r).faults = s.faults.add .undefRead := by
  cases r with
  | cmd | status | saddr | fcode | len | timeLo | timeHi | params | tickhz | baud | silent => exact .inl rfl
  | outLen | crc | lrc | pstat | lastReadLo | lastReadHi =>
    simp only [State.readReg, State.answerUnless]
    split <;> exact .inl rfl
  | inWord k => exact s.answerWord_faults_cases _ k
  | outWord k =>
    simp only [State.readReg]
    split
    · exact .inl rfl
    · exact s.answerWord_faults_cases _ k

/-- An event adds one model fault to FAULTS at most. -/
theorem EventEffect.faults_cases (c : EventEffect s e t) :
    t.faults = s.faults ∨ ∃ g, t.faults = s.faults.add g := by
  cases c with
  | held | notTaken | illegal | noCommand | tick | assert | released | notAsserted => exact .inl rfl
  | @read _ _ r => exact (s.readReg_faults_cases r).imp_right fun h => ⟨_, h⟩
  | write => rw [s.writeReg_frame]; exact .inl rfl
  | busError => exact .inr ⟨.busError, rfl⟩
  | command _ _ hx =>
    obtain h | h | h := (exec_effect hx).faults_cases
    · exact .inl h
    · exact .inr ⟨_, h⟩
    · exact .inr ⟨_, h⟩

/-- Settles O59: a step is one event, an event at most adds to FAULTS, and reset keeps its members (R262). -/
theorem faultsAreNeverRemoved : Obligations.FaultsAreNeverRemoved := by
  intro s t f hs hf
  obtain ⟨u, e, hstep, es, rfl⟩ := step_is_event s
  obtain h | ⟨g, h⟩ := (handle_effect (hstep.symm.trans hs)).faults_cases
  · rw [h]; exact hf
  · rw [h]; exact s.faults.has_add_mono f g hf

end Sys2Proof.Machine

/-! # The reset input

What an event does while reset is asserted, and the state at the release (70_reset_and_hazards R260, R262; 10_state
R47). -/

namespace Sys2Proof.Machine

variable {s t : State} {e : Event}

/-- While reset is asserted an event other than its release reaches no field of the block: an access is answered as not
taken, and that answer is the model's own. -/
theorem EventEffect.eq_of_inReset (c : EventEffect s e t) (h : s.inReset = true) (hr : e ≠ .resetRelease) :
    t = { s with response := t.response } := by
  cases c with
  | held | notTaken => rfl
  | assert => cases s; cases h; rfl
  | released => exact absurd rfl hr
  | read h0 | write h0 | busError h0 | tick h0 | notAsserted h0 => exact nomatch h.symm.trans h0
  | command hp | illegal hp | noCommand hp => exact nomatch h.symm.trans hp.1

/-- The release of reset, where it was asserted. -/
theorem handle_resetRelease (h : s.inReset = true) : s.handle .resetRelease = .next s.released := by
  simp [State.handle, h]

/-- Settles O55: reset shuts out every effect of an event but its release, which answers `State.released`. -/
theorem resetGivesEveryFieldItsResetValue : Obligations.ResetGivesEveryFieldItsResetValue :=
  ⟨fun _ => rfl, fun _ _ _ h hr hs => (handle_effect hs).eq_of_inReset h hr, fun _ h =>
    ⟨_, handle_resetRelease h, rfl, rfl, rfl, rfl, rfl, rfl, rfl, rfl, rfl, rfl, rfl, rfl, rfl, rfl,
      fun _ => ⟨rfl, rfl⟩, rfl, rfl, rfl, rfl⟩⟩

end Sys2Proof.Machine
